-- ==== Sys2Proof/Word.lean ====
section
/-! DEFINITION. The word types of the core (`spec/00_scope.md` R8, R9), the two operand widths, and the
value of a width-dependent immediate. Arithmetic on them is in `Machine/Flags.lean`. -/

namespace Sys2Proof

/-- Eight bits: DB, PBR, P and every byte of memory. -/
abbrev Byte := BitVec 8

/-- Sixteen bits: A, X, Y, S, D, PC. -/
abbrev Word := BitVec 16

/-- A flat address, twenty-four bits (`20_memory.md` R60, R61). -/
abbrev Addr := BitVec 24

/-- The operand width `w` of R9: 8 ("narrow") or 16 ("wide"). -/
inductive Width
  | narrow
  | wide
  deriving DecidableEq, Repr

/-- The operand of an `IMMM` or `IMMX` instruction (`30_encoding.md` R91): one byte when it was fetched
with the width flag set, two bytes when it was fetched with the flag clear. -/
inductive Imm
  | byte (v : Byte)
  | word (v : Word)
  deriving DecidableEq, Repr

end Sys2Proof
end

