-- ==== Sys2Proof/Syntax.lean ====
section
/-! DEFINITION. The instructions of the core: one constructor per row of `spec/opcode_table.json`
(`30_encoding.md` R94), those with operands first, each part in opcode order. A constructor's name is the
mnemonic and the addressing mode (R95): `Imm` `#`, `Acc` `A`, `Dp` `dp`, `DpX` `dp,X`, `DpY` `dp,Y`,
`IndDp` `(dp)`, `IndDpX` `(dp,X)`, `IndDpY` `(dp),Y`, `LongIndDp` `[dp]`, `LongIndDpY` `[dp],Y`, `Abs` `abs`,
`AbsX` `abs,X`, `AbsY` `abs,Y`, `Long` `long`, `LongX` `long,X`, `Sr` `sr,S`, `IndSrY` `(sr,S),Y`, `Ind` `(abs)`,
`IndX` `(abs,X)`, `LongInd` `[abs]`. Its arguments are the operands of the row's format (R91, R93). -/

namespace Sys2Proof

/-- An instruction. The signature byte `sig` of BRK and COP is part of their encoding and is never read
(R92, log 10). -/
inductive Instr
  | brk (sig : Byte) -- 0x00 BRK sig
  | oraIndDpX (d : Byte) -- 0x01 ORA (dp,X)
  | cop (sig : Byte) -- 0x02 COP sig
  | oraSr (d : Byte) -- 0x03 ORA sr,S
  | tsbDp (d : Byte) -- 0x04 TSB dp
  | oraDp (d : Byte) -- 0x05 ORA dp
  | aslDp (d : Byte) -- 0x06 ASL dp
  | oraLongIndDp (d : Byte) -- 0x07 ORA [dp]
  | oraImm (imm : Imm) -- 0x09 ORA #
  | tsbAbs (a : Word) -- 0x0C TSB abs
  | oraAbs (a : Word) -- 0x0D ORA abs
  | aslAbs (a : Word) -- 0x0E ASL abs
  | oraLong (a : Addr) -- 0x0F ORA long
  | bpl (r : Byte) -- 0x10 BPL rel8
  | oraIndDpY (d : Byte) -- 0x11 ORA (dp),Y
  | oraIndDp (d : Byte) -- 0x12 ORA (dp)
  | oraIndSrY (d : Byte) -- 0x13 ORA (sr,S),Y
  | trbDp (d : Byte) -- 0x14 TRB dp
  | oraDpX (d : Byte) -- 0x15 ORA dp,X
  | aslDpX (d : Byte) -- 0x16 ASL dp,X
  | oraLongIndDpY (d : Byte) -- 0x17 ORA [dp],Y
  | oraAbsY (a : Word) -- 0x19 ORA abs,Y
  | trbAbs (a : Word) -- 0x1C TRB abs
  | oraAbsX (a : Word) -- 0x1D ORA abs,X
  | aslAbsX (a : Word) -- 0x1E ASL abs,X
  | oraLongX (a : Addr) -- 0x1F ORA long,X
  | jsrAbs (a : Word) -- 0x20 JSR abs
  | andIndDpX (d : Byte) -- 0x21 AND (dp,X)
  | jsl (a : Addr) -- 0x22 JSL long
  | andSr (d : Byte) -- 0x23 AND sr,S
  | bitDp (d : Byte) -- 0x24 BIT dp
  | andDp (d : Byte) -- 0x25 AND dp
  | rolDp (d : Byte) -- 0x26 ROL dp
  | andLongIndDp (d : Byte) -- 0x27 AND [dp]
  | andImm (imm : Imm) -- 0x29 AND #
  | bitAbs (a : Word) -- 0x2C BIT abs
  | andAbs (a : Word) -- 0x2D AND abs
  | rolAbs (a : Word) -- 0x2E ROL abs
  | andLong (a : Addr) -- 0x2F AND long
  | bmi (r : Byte) -- 0x30 BMI rel8
  | andIndDpY (d : Byte) -- 0x31 AND (dp),Y
  | andIndDp (d : Byte) -- 0x32 AND (dp)
  | andIndSrY (d : Byte) -- 0x33 AND (sr,S),Y
  | bitDpX (d : Byte) -- 0x34 BIT dp,X
  | andDpX (d : Byte) -- 0x35 AND dp,X
  | rolDpX (d : Byte) -- 0x36 ROL dp,X
  | andLongIndDpY (d : Byte) -- 0x37 AND [dp],Y
  | andAbsY (a : Word) -- 0x39 AND abs,Y
  | bitAbsX (a : Word) -- 0x3C BIT abs,X
  | andAbsX (a : Word) -- 0x3D AND abs,X
  | rolAbsX (a : Word) -- 0x3E ROL abs,X
  | andLongX (a : Addr) -- 0x3F AND long,X
  | eorIndDpX (d : Byte) -- 0x41 EOR (dp,X)
  | wdm (imm : Byte) -- 0x42 WDM #
  | eorSr (d : Byte) -- 0x43 EOR sr,S
  | mvp (dst : Byte) (src : Byte) -- 0x44 MVP dst,src
  | eorDp (d : Byte) -- 0x45 EOR dp
  | lsrDp (d : Byte) -- 0x46 LSR dp
  | eorLongIndDp (d : Byte) -- 0x47 EOR [dp]
  | eorImm (imm : Imm) -- 0x49 EOR #
  | jmpAbs (a : Word) -- 0x4C JMP abs
  | eorAbs (a : Word) -- 0x4D EOR abs
  | lsrAbs (a : Word) -- 0x4E LSR abs
  | eorLong (a : Addr) -- 0x4F EOR long
  | bvc (r : Byte) -- 0x50 BVC rel8
  | eorIndDpY (d : Byte) -- 0x51 EOR (dp),Y
  | eorIndDp (d : Byte) -- 0x52 EOR (dp)
  | eorIndSrY (d : Byte) -- 0x53 EOR (sr,S),Y
  | mvn (dst : Byte) (src : Byte) -- 0x54 MVN dst,src
  | eorDpX (d : Byte) -- 0x55 EOR dp,X
  | lsrDpX (d : Byte) -- 0x56 LSR dp,X
  | eorLongIndDpY (d : Byte) -- 0x57 EOR [dp],Y
  | eorAbsY (a : Word) -- 0x59 EOR abs,Y
  | jmlLong (a : Addr) -- 0x5C JML long
  | eorAbsX (a : Word) -- 0x5D EOR abs,X
  | lsrAbsX (a : Word) -- 0x5E LSR abs,X
  | eorLongX (a : Addr) -- 0x5F EOR long,X
  | adcIndDpX (d : Byte) -- 0x61 ADC (dp,X)
  | per (r : Word) -- 0x62 PER rel16
  | adcSr (d : Byte) -- 0x63 ADC sr,S
  | stzDp (d : Byte) -- 0x64 STZ dp
  | adcDp (d : Byte) -- 0x65 ADC dp
  | rorDp (d : Byte) -- 0x66 ROR dp
  | adcLongIndDp (d : Byte) -- 0x67 ADC [dp]
  | adcImm (imm : Imm) -- 0x69 ADC #
  | jmpInd (a : Word) -- 0x6C JMP (abs)
  | adcAbs (a : Word) -- 0x6D ADC abs
  | rorAbs (a : Word) -- 0x6E ROR abs
  | adcLong (a : Addr) -- 0x6F ADC long
  | bvs (r : Byte) -- 0x70 BVS rel8
  | adcIndDpY (d : Byte) -- 0x71 ADC (dp),Y
  | adcIndDp (d : Byte) -- 0x72 ADC (dp)
  | adcIndSrY (d : Byte) -- 0x73 ADC (sr,S),Y
  | stzDpX (d : Byte) -- 0x74 STZ dp,X
  | adcDpX (d : Byte) -- 0x75 ADC dp,X
  | rorDpX (d : Byte) -- 0x76 ROR dp,X
  | adcLongIndDpY (d : Byte) -- 0x77 ADC [dp],Y
  | adcAbsY (a : Word) -- 0x79 ADC abs,Y
  | jmpIndX (a : Word) -- 0x7C JMP (abs,X)
  | adcAbsX (a : Word) -- 0x7D ADC abs,X
  | rorAbsX (a : Word) -- 0x7E ROR abs,X
  | adcLongX (a : Addr) -- 0x7F ADC long,X
  | bra (r : Byte) -- 0x80 BRA rel8
  | staIndDpX (d : Byte) -- 0x81 STA (dp,X)
  | brl (r : Word) -- 0x82 BRL rel16
  | staSr (d : Byte) -- 0x83 STA sr,S
  | styDp (d : Byte) -- 0x84 STY dp
  | staDp (d : Byte) -- 0x85 STA dp
  | stxDp (d : Byte) -- 0x86 STX dp
  | staLongIndDp (d : Byte) -- 0x87 STA [dp]
  | bitImm (imm : Imm) -- 0x89 BIT #
  | styAbs (a : Word) -- 0x8C STY abs
  | staAbs (a : Word) -- 0x8D STA abs
  | stxAbs (a : Word) -- 0x8E STX abs
  | staLong (a : Addr) -- 0x8F STA long
  | bcc (r : Byte) -- 0x90 BCC rel8
  | staIndDpY (d : Byte) -- 0x91 STA (dp),Y
  | staIndDp (d : Byte) -- 0x92 STA (dp)
  | staIndSrY (d : Byte) -- 0x93 STA (sr,S),Y
  | styDpX (d : Byte) -- 0x94 STY dp,X
  | staDpX (d : Byte) -- 0x95 STA dp,X
  | stxDpY (d : Byte) -- 0x96 STX dp,Y
  | staLongIndDpY (d : Byte) -- 0x97 STA [dp],Y
  | staAbsY (a : Word) -- 0x99 STA abs,Y
  | stzAbs (a : Word) -- 0x9C STZ abs
  | staAbsX (a : Word) -- 0x9D STA abs,X
  | stzAbsX (a : Word) -- 0x9E STZ abs,X
  | staLongX (a : Addr) -- 0x9F STA long,X
  | ldyImm (imm : Imm) -- 0xA0 LDY #
  | ldaIndDpX (d : Byte) -- 0xA1 LDA (dp,X)
  | ldxImm (imm : Imm) -- 0xA2 LDX #
  | ldaSr (d : Byte) -- 0xA3 LDA sr,S
  | ldyDp (d : Byte) -- 0xA4 LDY dp
  | ldaDp (d : Byte) -- 0xA5 LDA dp
  | ldxDp (d : Byte) -- 0xA6 LDX dp
  | ldaLongIndDp (d : Byte) -- 0xA7 LDA [dp]
  | ldaImm (imm : Imm) -- 0xA9 LDA #
  | ldyAbs (a : Word) -- 0xAC LDY abs
  | ldaAbs (a : Word) -- 0xAD LDA abs
  | ldxAbs (a : Word) -- 0xAE LDX abs
  | ldaLong (a : Addr) -- 0xAF LDA long
  | bcs (r : Byte) -- 0xB0 BCS rel8
  | ldaIndDpY (d : Byte) -- 0xB1 LDA (dp),Y
  | ldaIndDp (d : Byte) -- 0xB2 LDA (dp)
  | ldaIndSrY (d : Byte) -- 0xB3 LDA (sr,S),Y
  | ldyDpX (d : Byte) -- 0xB4 LDY dp,X
  | ldaDpX (d : Byte) -- 0xB5 LDA dp,X
  | ldxDpY (d : Byte) -- 0xB6 LDX dp,Y
  | ldaLongIndDpY (d : Byte) -- 0xB7 LDA [dp],Y
  | ldaAbsY (a : Word) -- 0xB9 LDA abs,Y
  | ldyAbsX (a : Word) -- 0xBC LDY abs,X
  | ldaAbsX (a : Word) -- 0xBD LDA abs,X
  | ldxAbsY (a : Word) -- 0xBE LDX abs,Y
  | ldaLongX (a : Addr) -- 0xBF LDA long,X
  | cpyImm (imm : Imm) -- 0xC0 CPY #
  | cmpIndDpX (d : Byte) -- 0xC1 CMP (dp,X)
  | rep (imm : Byte) -- 0xC2 REP #
  | cmpSr (d : Byte) -- 0xC3 CMP sr,S
  | cpyDp (d : Byte) -- 0xC4 CPY dp
  | cmpDp (d : Byte) -- 0xC5 CMP dp
  | decDp (d : Byte) -- 0xC6 DEC dp
  | cmpLongIndDp (d : Byte) -- 0xC7 CMP [dp]
  | cmpImm (imm : Imm) -- 0xC9 CMP #
  | cpyAbs (a : Word) -- 0xCC CPY abs
  | cmpAbs (a : Word) -- 0xCD CMP abs
  | decAbs (a : Word) -- 0xCE DEC abs
  | cmpLong (a : Addr) -- 0xCF CMP long
  | bne (r : Byte) -- 0xD0 BNE rel8
  | cmpIndDpY (d : Byte) -- 0xD1 CMP (dp),Y
  | cmpIndDp (d : Byte) -- 0xD2 CMP (dp)
  | cmpIndSrY (d : Byte) -- 0xD3 CMP (sr,S),Y
  | pei (d : Byte) -- 0xD4 PEI dp
  | cmpDpX (d : Byte) -- 0xD5 CMP dp,X
  | decDpX (d : Byte) -- 0xD6 DEC dp,X
  | cmpLongIndDpY (d : Byte) -- 0xD7 CMP [dp],Y
  | cmpAbsY (a : Word) -- 0xD9 CMP abs,Y
  | jmlLongInd (a : Word) -- 0xDC JML [abs]
  | cmpAbsX (a : Word) -- 0xDD CMP abs,X
  | decAbsX (a : Word) -- 0xDE DEC abs,X
  | cmpLongX (a : Addr) -- 0xDF CMP long,X
  | cpxImm (imm : Imm) -- 0xE0 CPX #
  | sbcIndDpX (d : Byte) -- 0xE1 SBC (dp,X)
  | sep (imm : Byte) -- 0xE2 SEP #
  | sbcSr (d : Byte) -- 0xE3 SBC sr,S
  | cpxDp (d : Byte) -- 0xE4 CPX dp
  | sbcDp (d : Byte) -- 0xE5 SBC dp
  | incDp (d : Byte) -- 0xE6 INC dp
  | sbcLongIndDp (d : Byte) -- 0xE7 SBC [dp]
  | sbcImm (imm : Imm) -- 0xE9 SBC #
  | cpxAbs (a : Word) -- 0xEC CPX abs
  | sbcAbs (a : Word) -- 0xED SBC abs
  | incAbs (a : Word) -- 0xEE INC abs
  | sbcLong (a : Addr) -- 0xEF SBC long
  | beq (r : Byte) -- 0xF0 BEQ rel8
  | sbcIndDpY (d : Byte) -- 0xF1 SBC (dp),Y
  | sbcIndDp (d : Byte) -- 0xF2 SBC (dp)
  | sbcIndSrY (d : Byte) -- 0xF3 SBC (sr,S),Y
  | pea (imm : Word) -- 0xF4 PEA #
  | sbcDpX (d : Byte) -- 0xF5 SBC dp,X
  | incDpX (d : Byte) -- 0xF6 INC dp,X
  | sbcLongIndDpY (d : Byte) -- 0xF7 SBC [dp],Y
  | sbcAbsY (a : Word) -- 0xF9 SBC abs,Y
  | jsrIndX (a : Word) -- 0xFC JSR (abs,X)
  | sbcAbsX (a : Word) -- 0xFD SBC abs,X
  | incAbsX (a : Word) -- 0xFE INC abs,X
  | sbcLongX (a : Addr) -- 0xFF SBC long,X
  | php -- 0x08 PHP
  | aslAcc -- 0x0A ASL A
  | phd -- 0x0B PHD
  | clc -- 0x18 CLC
  | incAcc -- 0x1A INC A
  | tcs -- 0x1B TCS
  | plp -- 0x28 PLP
  | rolAcc -- 0x2A ROL A
  | pld -- 0x2B PLD
  | sec -- 0x38 SEC
  | decAcc -- 0x3A DEC A
  | tsc -- 0x3B TSC
  | rti -- 0x40 RTI
  | pha -- 0x48 PHA
  | lsrAcc -- 0x4A LSR A
  | phk -- 0x4B PHK
  | cli -- 0x58 CLI
  | phy -- 0x5A PHY
  | tcd -- 0x5B TCD
  | rts -- 0x60 RTS
  | pla -- 0x68 PLA
  | rorAcc -- 0x6A ROR A
  | rtl -- 0x6B RTL
  | sei -- 0x78 SEI
  | ply -- 0x7A PLY
  | tdc -- 0x7B TDC
  | dey -- 0x88 DEY
  | txa -- 0x8A TXA
  | phb -- 0x8B PHB
  | tya -- 0x98 TYA
  | txs -- 0x9A TXS
  | txy -- 0x9B TXY
  | tay -- 0xA8 TAY
  | tax -- 0xAA TAX
  | plb -- 0xAB PLB
  | clv -- 0xB8 CLV
  | tsx -- 0xBA TSX
  | tyx -- 0xBB TYX
  | iny -- 0xC8 INY
  | dex -- 0xCA DEX
  | wai -- 0xCB WAI
  | cld -- 0xD8 CLD
  | phx -- 0xDA PHX
  | stp -- 0xDB STP
  | inx -- 0xE8 INX
  | nop -- 0xEA NOP
  | xba -- 0xEB XBA
  | sed -- 0xF8 SED
  | plx -- 0xFA PLX
  | xce -- 0xFB XCE
  deriving DecidableEq, Repr

end Sys2Proof
end

