-- ==== Sys2Proof/WellFormed.lean ====
section
/-! DEFINITION. Which instructions can be fetched at given width flags (`30_encoding.md` R91, R92): the
immediate of an `IMMM` opcode is one byte exactly when `P.M = 1`, that of an `IMMX` opcode exactly when
`P.X = 1`. Every other operand fills its bits, so nothing else can be ill formed. -/

namespace Sys2Proof

/-- The immediate has the length that the width flag `narrow` (`P.M` or `P.X`) gives it. -/
def Imm.fits : Imm → Bool → Bool
  | .byte _, narrow => narrow
  | .word _, narrow => !narrow

/-- `i` can be the instruction fetched while `P.M = m` and `P.X = x`. -/
def Instr.wellFormed (m x : Bool) (i : Instr) : Bool :=
  match i with
  | .oraImm v | .andImm v | .eorImm v | .adcImm v | .bitImm v | .ldaImm v | .cmpImm v | .sbcImm v => v.fits m
  | .ldyImm v | .ldxImm v | .cpyImm v | .cpxImm v => v.fits x
  | .brk _ | .oraIndDpX _ | .cop _ | .oraSr _ | .tsbDp _ | .oraDp _ | .aslDp _ | .oraLongIndDp _ | .php
  | .aslAcc | .phd | .tsbAbs _ | .oraAbs _ | .aslAbs _ | .oraLong _ | .bpl _ | .oraIndDpY _ | .oraIndDp _
  | .oraIndSrY _ | .trbDp _ | .oraDpX _ | .aslDpX _ | .oraLongIndDpY _ | .clc | .oraAbsY _ | .incAcc | .tcs
  | .trbAbs _ | .oraAbsX _ | .aslAbsX _ | .oraLongX _ | .jsrAbs _ | .andIndDpX _ | .jsl _ | .andSr _ | .bitDp _
  | .andDp _ | .rolDp _ | .andLongIndDp _ | .plp | .rolAcc | .pld | .bitAbs _ | .andAbs _ | .rolAbs _
  | .andLong _ | .bmi _ | .andIndDpY _ | .andIndDp _ | .andIndSrY _ | .bitDpX _ | .andDpX _ | .rolDpX _
  | .andLongIndDpY _ | .sec | .andAbsY _ | .decAcc | .tsc | .bitAbsX _ | .andAbsX _ | .rolAbsX _ | .andLongX _
  | .rti | .eorIndDpX _ | .wdm _ | .eorSr _ | .mvp _ _ | .eorDp _ | .lsrDp _ | .eorLongIndDp _ | .pha | .lsrAcc
  | .phk | .jmpAbs _ | .eorAbs _ | .lsrAbs _ | .eorLong _ | .bvc _ | .eorIndDpY _ | .eorIndDp _ | .eorIndSrY _
  | .mvn _ _ | .eorDpX _ | .lsrDpX _ | .eorLongIndDpY _ | .cli | .eorAbsY _ | .phy | .tcd | .jmlLong _
  | .eorAbsX _ | .lsrAbsX _ | .eorLongX _ | .rts | .adcIndDpX _ | .per _ | .adcSr _ | .stzDp _ | .adcDp _
  | .rorDp _ | .adcLongIndDp _ | .pla | .rorAcc | .rtl | .jmpInd _ | .adcAbs _ | .rorAbs _ | .adcLong _
  | .bvs _ | .adcIndDpY _ | .adcIndDp _ | .adcIndSrY _ | .stzDpX _ | .adcDpX _ | .rorDpX _ | .adcLongIndDpY _
  | .sei | .adcAbsY _ | .ply | .tdc | .jmpIndX _ | .adcAbsX _ | .rorAbsX _ | .adcLongX _ | .bra _
  | .staIndDpX _ | .brl _ | .staSr _ | .styDp _ | .staDp _ | .stxDp _ | .staLongIndDp _ | .dey | .txa | .phb
  | .styAbs _ | .staAbs _ | .stxAbs _ | .staLong _ | .bcc _ | .staIndDpY _ | .staIndDp _ | .staIndSrY _
  | .styDpX _ | .staDpX _ | .stxDpY _ | .staLongIndDpY _ | .tya | .staAbsY _ | .txs | .txy | .stzAbs _
  | .staAbsX _ | .stzAbsX _ | .staLongX _ | .ldaIndDpX _ | .ldaSr _ | .ldyDp _ | .ldaDp _ | .ldxDp _
  | .ldaLongIndDp _ | .tay | .tax | .plb | .ldyAbs _ | .ldaAbs _ | .ldxAbs _ | .ldaLong _ | .bcs _
  | .ldaIndDpY _ | .ldaIndDp _ | .ldaIndSrY _ | .ldyDpX _ | .ldaDpX _ | .ldxDpY _ | .ldaLongIndDpY _ | .clv
  | .ldaAbsY _ | .tsx | .tyx | .ldyAbsX _ | .ldaAbsX _ | .ldxAbsY _ | .ldaLongX _ | .cmpIndDpX _ | .rep _
  | .cmpSr _ | .cpyDp _ | .cmpDp _ | .decDp _ | .cmpLongIndDp _ | .iny | .dex | .wai | .cpyAbs _ | .cmpAbs _
  | .decAbs _ | .cmpLong _ | .bne _ | .cmpIndDpY _ | .cmpIndDp _ | .cmpIndSrY _ | .pei _ | .cmpDpX _
  | .decDpX _ | .cmpLongIndDpY _ | .cld | .cmpAbsY _ | .phx | .stp | .jmlLongInd _ | .cmpAbsX _ | .decAbsX _
  | .cmpLongX _ | .sbcIndDpX _ | .sep _ | .sbcSr _ | .cpxDp _ | .sbcDp _ | .incDp _ | .sbcLongIndDp _ | .inx
  | .nop | .xba | .cpxAbs _ | .sbcAbs _ | .incAbs _ | .sbcLong _ | .beq _ | .sbcIndDpY _ | .sbcIndDp _
  | .sbcIndSrY _ | .pea _ | .sbcDpX _ | .incDpX _ | .sbcLongIndDpY _ | .sed | .sbcAbsY _ | .plx | .xce
  | .jsrIndX _ | .sbcAbsX _ | .incAbsX _ | .sbcLongX _ => true

end Sys2Proof
end

