-- ==== Sys2Proof/Decode.lean ====
section
/-! DEFINITION. Instruction encoding (`spec/30_encoding.md`): the twelve formats, the opcode map of R94, the
decoder, and the encoder. Byte-order helpers used all over the machine stand here too (R93, `20_memory.md` R64). -/

namespace Sys2Proof

/-! ## Bytes and words -/

/-- `hi : lo`, the word whose bytes are `hi` and `lo` (`00_scope.md` R8). -/
def joinBytes (hi lo : Byte) : Word := hi ++ lo

/-- `b2 : b1 : b0`, the flat address whose bank is `b2` (R8, `20_memory.md` R71). -/
def joinAddr (b2 b1 b0 : Byte) : Addr := b2 ++ joinBytes b1 b0

/-- `v[7:0]`. -/
def lowByte (v : Word) : Byte := v.setWidth 8

/-- `v[15:8]`. -/
def highByte (v : Word) : Byte := (v >>> 8).setWidth 8

/-- `a[23:16]`, the bank of a flat address (`20_memory.md` R60). -/
def bankOf (a : Addr) : Byte := (a >>> 16).setWidth 8

/-- `a[15:0]`, the offset of a flat address in its bank (R60). -/
def offsetOf (a : Addr) : Word := a.setWidth 16

/-! ## Formats and the opcode map -/

/-- A cell of the opcode map: its format (R91, twelve of them) and the instruction the operands give. -/
inductive Entry
  | imp (i : Instr)
  | imm8 (f : Byte → Instr)
  | immM (f : Imm → Instr)
  | immX (f : Imm → Instr)
  | imm16 (f : Word → Instr)
  | sig (f : Byte → Instr)
  | d8 (f : Byte → Instr)
  | a16 (f : Word → Instr)
  | a24 (f : Addr → Instr)
  | rel8 (f : Byte → Instr)
  | rel16 (f : Word → Instr)
  | blk (f : Byte → Byte → Instr)

/-- Row `0` of the matrix of R94: opcodes `0x00` to `0x0F`. -/
def opcodeRow0 : List Entry :=
  [.sig .brk, .d8 .oraIndDpX, .sig .cop, .d8 .oraSr,
   .d8 .tsbDp, .d8 .oraDp, .d8 .aslDp, .d8 .oraLongIndDp,
   .imp .php, .immM .oraImm, .imp .aslAcc, .imp .phd,
   .a16 .tsbAbs, .a16 .oraAbs, .a16 .aslAbs, .a24 .oraLong]

/-- Row `1` of the matrix of R94: opcodes `0x10` to `0x1F`. -/
def opcodeRow1 : List Entry :=
  [.rel8 .bpl, .d8 .oraIndDpY, .d8 .oraIndDp, .d8 .oraIndSrY,
   .d8 .trbDp, .d8 .oraDpX, .d8 .aslDpX, .d8 .oraLongIndDpY,
   .imp .clc, .a16 .oraAbsY, .imp .incAcc, .imp .tcs,
   .a16 .trbAbs, .a16 .oraAbsX, .a16 .aslAbsX, .a24 .oraLongX]

/-- Row `2` of the matrix of R94: opcodes `0x20` to `0x2F`. -/
def opcodeRow2 : List Entry :=
  [.a16 .jsrAbs, .d8 .andIndDpX, .a24 .jsl, .d8 .andSr,
   .d8 .bitDp, .d8 .andDp, .d8 .rolDp, .d8 .andLongIndDp,
   .imp .plp, .immM .andImm, .imp .rolAcc, .imp .pld,
   .a16 .bitAbs, .a16 .andAbs, .a16 .rolAbs, .a24 .andLong]

/-- Row `3` of the matrix of R94: opcodes `0x30` to `0x3F`. -/
def opcodeRow3 : List Entry :=
  [.rel8 .bmi, .d8 .andIndDpY, .d8 .andIndDp, .d8 .andIndSrY,
   .d8 .bitDpX, .d8 .andDpX, .d8 .rolDpX, .d8 .andLongIndDpY,
   .imp .sec, .a16 .andAbsY, .imp .decAcc, .imp .tsc,
   .a16 .bitAbsX, .a16 .andAbsX, .a16 .rolAbsX, .a24 .andLongX]

/-- Row `4` of the matrix of R94: opcodes `0x40` to `0x4F`. -/
def opcodeRow4 : List Entry :=
  [.imp .rti, .d8 .eorIndDpX, .imm8 .wdm, .d8 .eorSr,
   .blk .mvp, .d8 .eorDp, .d8 .lsrDp, .d8 .eorLongIndDp,
   .imp .pha, .immM .eorImm, .imp .lsrAcc, .imp .phk,
   .a16 .jmpAbs, .a16 .eorAbs, .a16 .lsrAbs, .a24 .eorLong]

/-- Row `5` of the matrix of R94: opcodes `0x50` to `0x5F`. -/
def opcodeRow5 : List Entry :=
  [.rel8 .bvc, .d8 .eorIndDpY, .d8 .eorIndDp, .d8 .eorIndSrY,
   .blk .mvn, .d8 .eorDpX, .d8 .lsrDpX, .d8 .eorLongIndDpY,
   .imp .cli, .a16 .eorAbsY, .imp .phy, .imp .tcd,
   .a24 .jmlLong, .a16 .eorAbsX, .a16 .lsrAbsX, .a24 .eorLongX]

/-- Row `6` of the matrix of R94: opcodes `0x60` to `0x6F`. -/
def opcodeRow6 : List Entry :=
  [.imp .rts, .d8 .adcIndDpX, .rel16 .per, .d8 .adcSr,
   .d8 .stzDp, .d8 .adcDp, .d8 .rorDp, .d8 .adcLongIndDp,
   .imp .pla, .immM .adcImm, .imp .rorAcc, .imp .rtl,
   .a16 .jmpInd, .a16 .adcAbs, .a16 .rorAbs, .a24 .adcLong]

/-- Row `7` of the matrix of R94: opcodes `0x70` to `0x7F`. -/
def opcodeRow7 : List Entry :=
  [.rel8 .bvs, .d8 .adcIndDpY, .d8 .adcIndDp, .d8 .adcIndSrY,
   .d8 .stzDpX, .d8 .adcDpX, .d8 .rorDpX, .d8 .adcLongIndDpY,
   .imp .sei, .a16 .adcAbsY, .imp .ply, .imp .tdc,
   .a16 .jmpIndX, .a16 .adcAbsX, .a16 .rorAbsX, .a24 .adcLongX]

/-- Row `8` of the matrix of R94: opcodes `0x80` to `0x8F`. -/
def opcodeRow8 : List Entry :=
  [.rel8 .bra, .d8 .staIndDpX, .rel16 .brl, .d8 .staSr,
   .d8 .styDp, .d8 .staDp, .d8 .stxDp, .d8 .staLongIndDp,
   .imp .dey, .immM .bitImm, .imp .txa, .imp .phb,
   .a16 .styAbs, .a16 .staAbs, .a16 .stxAbs, .a24 .staLong]

/-- Row `9` of the matrix of R94: opcodes `0x90` to `0x9F`. -/
def opcodeRow9 : List Entry :=
  [.rel8 .bcc, .d8 .staIndDpY, .d8 .staIndDp, .d8 .staIndSrY,
   .d8 .styDpX, .d8 .staDpX, .d8 .stxDpY, .d8 .staLongIndDpY,
   .imp .tya, .a16 .staAbsY, .imp .txs, .imp .txy,
   .a16 .stzAbs, .a16 .staAbsX, .a16 .stzAbsX, .a24 .staLongX]

/-- Row `A` of the matrix of R94: opcodes `0xA0` to `0xAF`. -/
def opcodeRowA : List Entry :=
  [.immX .ldyImm, .d8 .ldaIndDpX, .immX .ldxImm, .d8 .ldaSr,
   .d8 .ldyDp, .d8 .ldaDp, .d8 .ldxDp, .d8 .ldaLongIndDp,
   .imp .tay, .immM .ldaImm, .imp .tax, .imp .plb,
   .a16 .ldyAbs, .a16 .ldaAbs, .a16 .ldxAbs, .a24 .ldaLong]

/-- Row `B` of the matrix of R94: opcodes `0xB0` to `0xBF`. -/
def opcodeRowB : List Entry :=
  [.rel8 .bcs, .d8 .ldaIndDpY, .d8 .ldaIndDp, .d8 .ldaIndSrY,
   .d8 .ldyDpX, .d8 .ldaDpX, .d8 .ldxDpY, .d8 .ldaLongIndDpY,
   .imp .clv, .a16 .ldaAbsY, .imp .tsx, .imp .tyx,
   .a16 .ldyAbsX, .a16 .ldaAbsX, .a16 .ldxAbsY, .a24 .ldaLongX]

/-- Row `C` of the matrix of R94: opcodes `0xC0` to `0xCF`. -/
def opcodeRowC : List Entry :=
  [.immX .cpyImm, .d8 .cmpIndDpX, .imm8 .rep, .d8 .cmpSr,
   .d8 .cpyDp, .d8 .cmpDp, .d8 .decDp, .d8 .cmpLongIndDp,
   .imp .iny, .immM .cmpImm, .imp .dex, .imp .wai,
   .a16 .cpyAbs, .a16 .cmpAbs, .a16 .decAbs, .a24 .cmpLong]

/-- Row `D` of the matrix of R94: opcodes `0xD0` to `0xDF`. -/
def opcodeRowD : List Entry :=
  [.rel8 .bne, .d8 .cmpIndDpY, .d8 .cmpIndDp, .d8 .cmpIndSrY,
   .d8 .pei, .d8 .cmpDpX, .d8 .decDpX, .d8 .cmpLongIndDpY,
   .imp .cld, .a16 .cmpAbsY, .imp .phx, .imp .stp,
   .a16 .jmlLongInd, .a16 .cmpAbsX, .a16 .decAbsX, .a24 .cmpLongX]

/-- Row `E` of the matrix of R94: opcodes `0xE0` to `0xEF`. -/
def opcodeRowE : List Entry :=
  [.immX .cpxImm, .d8 .sbcIndDpX, .imm8 .sep, .d8 .sbcSr,
   .d8 .cpxDp, .d8 .sbcDp, .d8 .incDp, .d8 .sbcLongIndDp,
   .imp .inx, .immM .sbcImm, .imp .nop, .imp .xba,
   .a16 .cpxAbs, .a16 .sbcAbs, .a16 .incAbs, .a24 .sbcLong]

/-- Row `F` of the matrix of R94: opcodes `0xF0` to `0xFF`. -/
def opcodeRowF : List Entry :=
  [.rel8 .beq, .d8 .sbcIndDpY, .d8 .sbcIndDp, .d8 .sbcIndSrY,
   .imm16 .pea, .d8 .sbcDpX, .d8 .incDpX, .d8 .sbcLongIndDpY,
   .imp .sed, .a16 .sbcAbsY, .imp .plx, .imp .xce,
   .a16 .jsrIndX, .a16 .sbcAbsX, .a16 .incAbsX, .a24 .sbcLongX]

/-- The opcode map of R94, one row per high nibble. -/
def opcodeMap : List (List Entry) :=
  [opcodeRow0, opcodeRow1, opcodeRow2, opcodeRow3, opcodeRow4, opcodeRow5, opcodeRow6, opcodeRow7,
   opcodeRow8, opcodeRow9, opcodeRowA, opcodeRowB, opcodeRowC, opcodeRowD, opcodeRowE, opcodeRowF]

/-- The cell of opcode `op`: row `op[7:4]`, column `op[3:0]`. -/
def opcodeEntry (op : Byte) : Option Entry := (opcodeMap[op.toNat / 16]?).bind fun row => row[op.toNat % 16]?

/-! ## Lengths -/

/-- How many operand bytes a `Step` fetches after the opcode (R91, R92): none for BRK and COP, whose
signature byte is not fetched. -/
def Entry.fetchedOperands (m x : Bool) : Entry → Nat
  | .imp _ | .sig _ => 0
  | .imm8 _ | .d8 _ | .rel8 _ => 1
  | .immM _ => if m then 1 else 2
  | .immX _ => if x then 1 else 2
  | .imm16 _ | .a16 _ | .rel16 _ | .blk _ => 2
  | .a24 _ => 3

/-- How many bytes follow the opcode in the program (R91): as fetched, and the signature byte of BRK and COP. -/
def Entry.operandBytes (m x : Bool) (c : Entry) : Nat :=
  match c with
  | .sig _ => 1
  | .imp _ | .imm8 _ | .d8 _ | .rel8 _ | .immM _ | .immX _ | .imm16 _ | .a16 _ | .rel16 _ | .blk _ | .a24 _ =>
    c.fetchedOperands m x

/-- Bytes a `Step` fetches for opcode `op` while `P.M = m` and `P.X = x`, the opcode among them. -/
def fetchedLength (m x : Bool) (op : Byte) : Nat := 1 + ((opcodeEntry op).map (Entry.fetchedOperands m x)).getD 0

/-- Bytes the instruction with opcode `op` takes in the program (R91, column length). -/
def instructionLength (m x : Bool) (op : Byte) : Nat := 1 + ((opcodeEntry op).map (Entry.operandBytes m x)).getD 0

/-! ## Decoding -/

/-- Why bytes give no instruction. No opcode is rejected (R94: `Decode(op)` is total on the 256 byte values). -/
inductive DecodeError
  /-- there is no byte at all -/
  | empty
  /-- the instruction has more operand bytes than are given -/
  | truncated
  /-- the opcode has no cell in the map; this does not happen -/
  | noCell
  deriving DecidableEq, Repr

/-- The immediate of R93: one byte if the width flag `narrow` is set, else two, low byte first. -/
def decodeImm (f : Imm → Instr) (narrow : Bool) (bs : List Byte) : Except DecodeError Instr :=
  match narrow, bs with
  | true, b0 :: _ => .ok (f (.byte b0))
  | false, b0 :: b1 :: _ => .ok (f (.word (joinBytes b1 b0)))
  | _, _ => .error .truncated

/-- The instruction of a cell whose operand bytes stand at the head of `bs`, low byte first (R93). -/
def Entry.decode (m x : Bool) (c : Entry) (bs : List Byte) : Except DecodeError Instr :=
  match c, bs with
  | .imp i, _ => .ok i
  | .immM f, bs => decodeImm f m bs
  | .immX f, bs => decodeImm f x bs
  | .imm8 f, b0 :: _ | .sig f, b0 :: _ | .d8 f, b0 :: _ | .rel8 f, b0 :: _ => .ok (f b0)
  | .imm16 f, b0 :: b1 :: _ | .a16 f, b0 :: b1 :: _ | .rel16 f, b0 :: b1 :: _ => .ok (f (joinBytes b1 b0))
  | .blk f, b0 :: b1 :: _ => .ok (f b0 b1)
  | .a24 f, b0 :: b1 :: b2 :: _ => .ok (f (joinAddr b2 b1 b0))
  | .imm8 _, _ | .sig _, _ | .d8 _, _ | .rel8 _, _ | .imm16 _, _ | .a16 _, _ | .rel16 _, _ | .blk _, _
  | .a24 _, _ => .error .truncated

/-- The instruction at the head of `bytes` while `P.M = m` and `P.X = x` (R92). Bytes after it are not read. -/
def decode (m x : Bool) (bytes : List Byte) : Except DecodeError Instr :=
  match bytes with
  | [] => .error .empty
  | op :: operands =>
    match opcodeEntry op with
    | some c => c.decode m x operands
    | none => .error .noCell

/-- The bits `w`, numbered as `spec/opcode_table.json` numbers them, as four bytes in program order; bits
from `nbits` up are 0. -/
def tableBytes (nbits w : Nat) : List Byte :=
  let v := w % 2 ^ nbits
  [BitVec.ofNat 8 v, BitVec.ofNat 8 (v / 2 ^ 8), BitVec.ofNat 8 (v / 2 ^ 16), BitVec.ofNat 8 (v / 2 ^ 24)]

/-- The instruction the decoder reads from the table's bits `w`, at the widths the core has right after
reset (`P.M = P.X = 1`; log 19). -/
def decodeTableWord (nbits w : Nat) : Option Instr := (decode true true (tableBytes nbits w)).toOption

/-! ## Encoding -/

/-- Bytes of a word operand, low byte first (R93). -/
def wordBytes (v : Word) : List Byte := [lowByte v, highByte v]

/-- Bytes of a flat address, low byte first (R93). -/
def addrBytes (a : Addr) : List Byte := [lowByte (offsetOf a), highByte (offsetOf a), bankOf a]

/-- Bytes of an immediate (R91): one or two. -/
def immBytes : Imm → List Byte
  | .byte v => [v]
  | .word v => wordBytes v

/-- The bytes of an instruction in program order (R91; opcodes of R94). -/
def encode (i : Instr) : List Byte :=
  match i with
  | .brk sig => [0x00, sig]
  | .oraIndDpX d => [0x01, d]
  | .cop sig => [0x02, sig]
  | .oraSr d => [0x03, d]
  | .tsbDp d => [0x04, d]
  | .oraDp d => [0x05, d]
  | .aslDp d => [0x06, d]
  | .oraLongIndDp d => [0x07, d]
  | .oraImm imm => 0x09 :: immBytes imm
  | .tsbAbs a => 0x0C :: wordBytes a
  | .oraAbs a => 0x0D :: wordBytes a
  | .aslAbs a => 0x0E :: wordBytes a
  | .oraLong a => 0x0F :: addrBytes a
  | .bpl r => [0x10, r]
  | .oraIndDpY d => [0x11, d]
  | .oraIndDp d => [0x12, d]
  | .oraIndSrY d => [0x13, d]
  | .trbDp d => [0x14, d]
  | .oraDpX d => [0x15, d]
  | .aslDpX d => [0x16, d]
  | .oraLongIndDpY d => [0x17, d]
  | .oraAbsY a => 0x19 :: wordBytes a
  | .trbAbs a => 0x1C :: wordBytes a
  | .oraAbsX a => 0x1D :: wordBytes a
  | .aslAbsX a => 0x1E :: wordBytes a
  | .oraLongX a => 0x1F :: addrBytes a
  | .jsrAbs a => 0x20 :: wordBytes a
  | .andIndDpX d => [0x21, d]
  | .jsl a => 0x22 :: addrBytes a
  | .andSr d => [0x23, d]
  | .bitDp d => [0x24, d]
  | .andDp d => [0x25, d]
  | .rolDp d => [0x26, d]
  | .andLongIndDp d => [0x27, d]
  | .andImm imm => 0x29 :: immBytes imm
  | .bitAbs a => 0x2C :: wordBytes a
  | .andAbs a => 0x2D :: wordBytes a
  | .rolAbs a => 0x2E :: wordBytes a
  | .andLong a => 0x2F :: addrBytes a
  | .bmi r => [0x30, r]
  | .andIndDpY d => [0x31, d]
  | .andIndDp d => [0x32, d]
  | .andIndSrY d => [0x33, d]
  | .bitDpX d => [0x34, d]
  | .andDpX d => [0x35, d]
  | .rolDpX d => [0x36, d]
  | .andLongIndDpY d => [0x37, d]
  | .andAbsY a => 0x39 :: wordBytes a
  | .bitAbsX a => 0x3C :: wordBytes a
  | .andAbsX a => 0x3D :: wordBytes a
  | .rolAbsX a => 0x3E :: wordBytes a
  | .andLongX a => 0x3F :: addrBytes a
  | .eorIndDpX d => [0x41, d]
  | .wdm imm => [0x42, imm]
  | .eorSr d => [0x43, d]
  | .mvp dst src => [0x44, dst, src]
  | .eorDp d => [0x45, d]
  | .lsrDp d => [0x46, d]
  | .eorLongIndDp d => [0x47, d]
  | .eorImm imm => 0x49 :: immBytes imm
  | .jmpAbs a => 0x4C :: wordBytes a
  | .eorAbs a => 0x4D :: wordBytes a
  | .lsrAbs a => 0x4E :: wordBytes a
  | .eorLong a => 0x4F :: addrBytes a
  | .bvc r => [0x50, r]
  | .eorIndDpY d => [0x51, d]
  | .eorIndDp d => [0x52, d]
  | .eorIndSrY d => [0x53, d]
  | .mvn dst src => [0x54, dst, src]
  | .eorDpX d => [0x55, d]
  | .lsrDpX d => [0x56, d]
  | .eorLongIndDpY d => [0x57, d]
  | .eorAbsY a => 0x59 :: wordBytes a
  | .jmlLong a => 0x5C :: addrBytes a
  | .eorAbsX a => 0x5D :: wordBytes a
  | .lsrAbsX a => 0x5E :: wordBytes a
  | .eorLongX a => 0x5F :: addrBytes a
  | .adcIndDpX d => [0x61, d]
  | .per r => 0x62 :: wordBytes r
  | .adcSr d => [0x63, d]
  | .stzDp d => [0x64, d]
  | .adcDp d => [0x65, d]
  | .rorDp d => [0x66, d]
  | .adcLongIndDp d => [0x67, d]
  | .adcImm imm => 0x69 :: immBytes imm
  | .jmpInd a => 0x6C :: wordBytes a
  | .adcAbs a => 0x6D :: wordBytes a
  | .rorAbs a => 0x6E :: wordBytes a
  | .adcLong a => 0x6F :: addrBytes a
  | .bvs r => [0x70, r]
  | .adcIndDpY d => [0x71, d]
  | .adcIndDp d => [0x72, d]
  | .adcIndSrY d => [0x73, d]
  | .stzDpX d => [0x74, d]
  | .adcDpX d => [0x75, d]
  | .rorDpX d => [0x76, d]
  | .adcLongIndDpY d => [0x77, d]
  | .adcAbsY a => 0x79 :: wordBytes a
  | .jmpIndX a => 0x7C :: wordBytes a
  | .adcAbsX a => 0x7D :: wordBytes a
  | .rorAbsX a => 0x7E :: wordBytes a
  | .adcLongX a => 0x7F :: addrBytes a
  | .bra r => [0x80, r]
  | .staIndDpX d => [0x81, d]
  | .brl r => 0x82 :: wordBytes r
  | .staSr d => [0x83, d]
  | .styDp d => [0x84, d]
  | .staDp d => [0x85, d]
  | .stxDp d => [0x86, d]
  | .staLongIndDp d => [0x87, d]
  | .bitImm imm => 0x89 :: immBytes imm
  | .styAbs a => 0x8C :: wordBytes a
  | .staAbs a => 0x8D :: wordBytes a
  | .stxAbs a => 0x8E :: wordBytes a
  | .staLong a => 0x8F :: addrBytes a
  | .bcc r => [0x90, r]
  | .staIndDpY d => [0x91, d]
  | .staIndDp d => [0x92, d]
  | .staIndSrY d => [0x93, d]
  | .styDpX d => [0x94, d]
  | .staDpX d => [0x95, d]
  | .stxDpY d => [0x96, d]
  | .staLongIndDpY d => [0x97, d]
  | .staAbsY a => 0x99 :: wordBytes a
  | .stzAbs a => 0x9C :: wordBytes a
  | .staAbsX a => 0x9D :: wordBytes a
  | .stzAbsX a => 0x9E :: wordBytes a
  | .staLongX a => 0x9F :: addrBytes a
  | .ldyImm imm => 0xA0 :: immBytes imm
  | .ldaIndDpX d => [0xA1, d]
  | .ldxImm imm => 0xA2 :: immBytes imm
  | .ldaSr d => [0xA3, d]
  | .ldyDp d => [0xA4, d]
  | .ldaDp d => [0xA5, d]
  | .ldxDp d => [0xA6, d]
  | .ldaLongIndDp d => [0xA7, d]
  | .ldaImm imm => 0xA9 :: immBytes imm
  | .ldyAbs a => 0xAC :: wordBytes a
  | .ldaAbs a => 0xAD :: wordBytes a
  | .ldxAbs a => 0xAE :: wordBytes a
  | .ldaLong a => 0xAF :: addrBytes a
  | .bcs r => [0xB0, r]
  | .ldaIndDpY d => [0xB1, d]
  | .ldaIndDp d => [0xB2, d]
  | .ldaIndSrY d => [0xB3, d]
  | .ldyDpX d => [0xB4, d]
  | .ldaDpX d => [0xB5, d]
  | .ldxDpY d => [0xB6, d]
  | .ldaLongIndDpY d => [0xB7, d]
  | .ldaAbsY a => 0xB9 :: wordBytes a
  | .ldyAbsX a => 0xBC :: wordBytes a
  | .ldaAbsX a => 0xBD :: wordBytes a
  | .ldxAbsY a => 0xBE :: wordBytes a
  | .ldaLongX a => 0xBF :: addrBytes a
  | .cpyImm imm => 0xC0 :: immBytes imm
  | .cmpIndDpX d => [0xC1, d]
  | .rep imm => [0xC2, imm]
  | .cmpSr d => [0xC3, d]
  | .cpyDp d => [0xC4, d]
  | .cmpDp d => [0xC5, d]
  | .decDp d => [0xC6, d]
  | .cmpLongIndDp d => [0xC7, d]
  | .cmpImm imm => 0xC9 :: immBytes imm
  | .cpyAbs a => 0xCC :: wordBytes a
  | .cmpAbs a => 0xCD :: wordBytes a
  | .decAbs a => 0xCE :: wordBytes a
  | .cmpLong a => 0xCF :: addrBytes a
  | .bne r => [0xD0, r]
  | .cmpIndDpY d => [0xD1, d]
  | .cmpIndDp d => [0xD2, d]
  | .cmpIndSrY d => [0xD3, d]
  | .pei d => [0xD4, d]
  | .cmpDpX d => [0xD5, d]
  | .decDpX d => [0xD6, d]
  | .cmpLongIndDpY d => [0xD7, d]
  | .cmpAbsY a => 0xD9 :: wordBytes a
  | .jmlLongInd a => 0xDC :: wordBytes a
  | .cmpAbsX a => 0xDD :: wordBytes a
  | .decAbsX a => 0xDE :: wordBytes a
  | .cmpLongX a => 0xDF :: addrBytes a
  | .cpxImm imm => 0xE0 :: immBytes imm
  | .sbcIndDpX d => [0xE1, d]
  | .sep imm => [0xE2, imm]
  | .sbcSr d => [0xE3, d]
  | .cpxDp d => [0xE4, d]
  | .sbcDp d => [0xE5, d]
  | .incDp d => [0xE6, d]
  | .sbcLongIndDp d => [0xE7, d]
  | .sbcImm imm => 0xE9 :: immBytes imm
  | .cpxAbs a => 0xEC :: wordBytes a
  | .sbcAbs a => 0xED :: wordBytes a
  | .incAbs a => 0xEE :: wordBytes a
  | .sbcLong a => 0xEF :: addrBytes a
  | .beq r => [0xF0, r]
  | .sbcIndDpY d => [0xF1, d]
  | .sbcIndDp d => [0xF2, d]
  | .sbcIndSrY d => [0xF3, d]
  | .pea imm => 0xF4 :: wordBytes imm
  | .sbcDpX d => [0xF5, d]
  | .incDpX d => [0xF6, d]
  | .sbcLongIndDpY d => [0xF7, d]
  | .sbcAbsY a => 0xF9 :: wordBytes a
  | .jsrIndX a => 0xFC :: wordBytes a
  | .sbcAbsX a => 0xFD :: wordBytes a
  | .incAbsX a => 0xFE :: wordBytes a
  | .sbcLongX a => 0xFF :: addrBytes a
  | .php => [0x08]
  | .aslAcc => [0x0A]
  | .phd => [0x0B]
  | .clc => [0x18]
  | .incAcc => [0x1A]
  | .tcs => [0x1B]
  | .plp => [0x28]
  | .rolAcc => [0x2A]
  | .pld => [0x2B]
  | .sec => [0x38]
  | .decAcc => [0x3A]
  | .tsc => [0x3B]
  | .rti => [0x40]
  | .pha => [0x48]
  | .lsrAcc => [0x4A]
  | .phk => [0x4B]
  | .cli => [0x58]
  | .phy => [0x5A]
  | .tcd => [0x5B]
  | .rts => [0x60]
  | .pla => [0x68]
  | .rorAcc => [0x6A]
  | .rtl => [0x6B]
  | .sei => [0x78]
  | .ply => [0x7A]
  | .tdc => [0x7B]
  | .dey => [0x88]
  | .txa => [0x8A]
  | .phb => [0x8B]
  | .tya => [0x98]
  | .txs => [0x9A]
  | .txy => [0x9B]
  | .tay => [0xA8]
  | .tax => [0xAA]
  | .plb => [0xAB]
  | .clv => [0xB8]
  | .tsx => [0xBA]
  | .tyx => [0xBB]
  | .iny => [0xC8]
  | .dex => [0xCA]
  | .wai => [0xCB]
  | .cld => [0xD8]
  | .phx => [0xDA]
  | .stp => [0xDB]
  | .inx => [0xE8]
  | .nop => [0xEA]
  | .xba => [0xEB]
  | .sed => [0xF8]
  | .plx => [0xFA]
  | .xce => [0xFB]

end Sys2Proof
end

