-- ==== Sys2Proof/Config.lean ====
section
/-! DEFINITION. The configuration record of `spec/00_scope.md` R7 (its defaults stand in `Machine/Parameters.lean`), the
reading of a byte that nothing has written (log 1), the driver's policy on an unsupported opcode (log 5), and the free
values: what decimal addition gives where a part has it, which the spec does not state (log 21). -/

namespace Sys2Proof

/-- The parameters that the source leaves to the implementation (R7), one field each. The widths of registers and
addresses, which the source fixes, are in the types. A machine carries its record in `State.params`, and nothing writes
it (log 4). -/
structure Parameters where
  /-- `SUPPORTED` (decision D3), given by the opcodes it leaves out -/
  unsupported : List Byte
  /-- `VEC_RESET` (D7) -/
  vecReset : Word
  /-- `VEC_N_COP` (D7) -/
  vecNativeCop : Word
  /-- `VEC_N_BRK` (D8) -/
  vecNativeBrk : Word
  /-- `VEC_N_NMI` (D7) -/
  vecNativeNmi : Word
  /-- `VEC_N_IRQ` (D8) -/
  vecNativeIrq : Word
  /-- `VEC_E_COP` (D7) -/
  vecEmulationCop : Word
  /-- `VEC_E_NMI` (D7) -/
  vecEmulationNmi : Word
  /-- `VEC_E_IRQBRK` (D7) -/
  vecEmulationIrqBrk : Word
  /-- `RESET_A` (D9, log 3) -/
  resetA : Word
  /-- `RESET_X` (D9, log 3); `Reset` drops its high byte (`70_reset_and_hazards.md` R400) -/
  resetX : Word
  /-- `RESET_Y` (D9, log 3); `Reset` drops its high byte -/
  resetY : Word
  /-- `RESET_D` (D9, log 3) -/
  resetD : Word
  /-- `RESET_DB` (D9, log 3) -/
  resetDB : Byte
  /-- `RESET_P` (D9, log 3) -/
  resetP : Byte
  /-- `DECIMAL_ARITH` (D16): `P.D` changes ADC and SBC -/
  decimalArith : Bool
  /-- `BIT_IMM_WRITES_NV` (D17): `BIT #` writes N and V -/
  bitImmWritesNV : Bool
  /-- `LONG_CARRY` (D13): arithmetic on flat addresses carries into the bank -/
  longCarry : Bool
  /-- `IRQ_WAKES_WAIT` (D22): a taken IRQ leaves the Halted state -/
  irqWakesWait : Bool
  /-- `CYCLES` (D25): sixteen rows, one per high nibble of the opcode (`70_reset_and_hazards.md` R410) -/
  cycles : List (List Nat)
  /-- `CYC_MIN` (D4): the cost of a `Step` that executes nothing -/
  cycMin : Nat
  /-- `CYC_MV_CONTINUE` (D25) -/
  cycMoveContinue : Nat
  /-- `CYC_MV_DONE` (D25) -/
  cycMoveDone : Nat
  deriving DecidableEq, Repr

namespace Config

/-- The driver's policy on `UnsupportedOpcode` (`60_exceptions.md` R361, D35): `false` is the permissive driver,
under which the core goes on at the next byte; `true` is the strict one, which ends the run. DESIGN CHOICE, log 5. -/
def strictUnsupported : Bool := false

/-- What a byte of memory that nothing has written reads as. DESIGN CHOICE, log 1. -/
def unlistedByte : Byte := 0x00

/-! ## Free values (log 21): with `DECIMAL_ARITH` and `P.D = 1` the spec states no result of ADC or SBC (U1). Each is a
function of whether the operation subtracts, the width, accumulator, operand and carry. -/

/-- The result of decimal ADC or SBC. -/
opaque decimalResult : Bool → Width → Word → Word → Bool → Word

/-- `P.C` after decimal ADC or SBC. -/
opaque decimalCarry : Bool → Width → Word → Word → Bool → Bool

/-- `P.V` after decimal ADC or SBC. -/
opaque decimalOverflow : Bool → Width → Word → Word → Bool → Bool

end Config

end Sys2Proof
end

