-- ==== Sys2Proof/Machine/Memory.lean ====
section
/-! DEFINITION. Memory as plain data: the one byte-addressed space of `2^24` cells (`spec/20_memory.md` R60, R63),
held as a list of cells in one canonical form, so that equal memories are equal lists. -/

namespace Sys2Proof.Machine

/-- Memory contents: pairs of a flat address and the byte there. An address that is not listed holds
`Config.unlistedByte`. -/
abbrev Memory := List Host.Cell

/-- The byte at flat address `k`. Total: no address is refused (R62, R69). -/
def Memory.read (m : Memory) (k : Nat) : Byte :=
  match m with
  | [] => Config.unlistedByte
  | (a, v) :: rest => if k = a then v else Memory.read rest k

/-- Put `v` before the cells of `m`, unless it is what an unlisted address reads as. -/
def Memory.cons (k : Nat) (v : Byte) (m : Memory) : Memory :=
  if v = Config.unlistedByte then m else (k, v) :: m

/-- Write `v` at flat address `k`, keeping addresses rising and no listed byte redundant. -/
def Memory.write (m : Memory) (k : Nat) (v : Byte) : Memory :=
  match m with
  | [] => Memory.cons k v []
  | (a, b) :: rest =>
    if k < a then Memory.cons k v ((a, b) :: rest)
    else if k = a then Memory.cons k v rest
    else (a, b) :: Memory.write rest k v

/-- Every address is at least `lo`, below `2^24` and rising, and no byte is redundant. -/
def Memory.wfFrom (lo : Nat) (m : Memory) : Bool :=
  match m with
  | [] => true
  | (a, v) :: rest => decide (lo ≤ a) && decide (a < 2 ^ 24) && (v != Config.unlistedByte) && Memory.wfFrom (a + 1) rest

/-- The canonical form. -/
def Memory.wf (m : Memory) : Bool := Memory.wfFrom 0 m

end Sys2Proof.Machine
end

