-- ==== Sys2Proof/Machine/Parameters.lean ====
section
/-! DEFINITION. What the configuration record says of an opcode, which records are legal, and the record of the spec's
defaults (`spec/00_scope.md` R7, log 4). -/

namespace Sys2Proof

/-- `op` is in `SUPPORTED` (`30_encoding.md` R97). -/
def Parameters.supported (c : Parameters) (op : Byte) : Bool := !c.unsupported.contains op

/-- `CYCLES(op)`: the nominal cost of the `Step` that executes opcode `op` (`70_reset_and_hazards.md` R410). -/
def Parameters.cost (c : Parameters) (op : Byte) : Nat := (c.cycles.getD (op.toNat / 16) []).getD (op.toNat % 16) 0

/-- `RESET_P` must have bits 5 and 4 set (`70_reset_and_hazards.md` R400). -/
def Parameters.legal (c : Parameters) : Bool := c.resetP &&& 0x30 == 0x30

namespace Config

/-- `CYCLES`, the table of R410 (D25): one row per high nibble of the opcode. -/
def cycleRows : List (List Nat) :=
  [[7, 6, 7, 4, 5, 3, 5, 6, 3, 2, 2, 4, 6, 4, 6, 5],
   [2, 5, 5, 7, 5, 4, 6, 6, 2, 4, 2, 2, 6, 4, 7, 5],
   [6, 6, 8, 4, 3, 3, 5, 6, 4, 2, 2, 5, 4, 4, 6, 5],
   [2, 5, 5, 7, 4, 4, 6, 6, 2, 4, 2, 2, 4, 4, 7, 5]]
  ++ [[6, 6, 2, 4, 7, 3, 5, 6, 3, 2, 2, 3, 3, 4, 6, 5],
      [2, 5, 5, 7, 7, 4, 6, 6, 2, 4, 3, 2, 4, 4, 7, 5],
      [6, 6, 6, 4, 3, 3, 5, 6, 4, 2, 2, 6, 5, 4, 6, 5],
      [2, 5, 5, 7, 4, 4, 6, 6, 2, 4, 4, 2, 6, 4, 7, 5]]
  ++ [[2, 6, 4, 4, 3, 3, 3, 6, 2, 2, 2, 3, 4, 4, 4, 5],
      [2, 6, 5, 7, 4, 4, 4, 6, 2, 5, 2, 2, 4, 5, 5, 5],
      [2, 6, 2, 4, 3, 3, 3, 6, 2, 2, 2, 4, 4, 4, 4, 5],
      [2, 5, 5, 7, 4, 4, 4, 6, 2, 4, 2, 2, 4, 4, 4, 5]]
  ++ [[2, 6, 3, 4, 3, 3, 5, 6, 2, 2, 2, 3, 4, 4, 6, 5],
      [2, 5, 5, 7, 6, 4, 6, 6, 2, 4, 3, 3, 6, 4, 7, 5],
      [2, 6, 3, 4, 3, 3, 5, 6, 2, 2, 2, 3, 4, 4, 6, 5],
      [2, 5, 5, 7, 5, 4, 6, 6, 2, 4, 4, 2, 8, 4, 7, 5]]

/-- The defaults (D3, D4, D7 to D9, D13, D16, D17, D22, D25): every opcode but `0x42` is supported, native BRK and IRQ
share a vector, arithmetic is binary. -/
def parameters : Parameters :=
  { unsupported := [0x42], vecReset := 0xFFFC, vecNativeCop := 0xFFE4, vecNativeBrk := 0xFFEE, vecNativeNmi := 0xFFEA,
    vecNativeIrq := 0xFFEE, vecEmulationCop := 0xFFF4, vecEmulationNmi := 0xFFFA, vecEmulationIrqBrk := 0xFFFE,
    resetA := 0x0000, resetX := 0x0000, resetY := 0x0000, resetD := 0x0000, resetDB := 0x00, resetP := 0x34,
    decimalArith := false, bitImmWritesNV := true, longCarry := true, irqWakesWait := false, cycles := cycleRows,
    cycMin := 1, cycMoveContinue := 7, cycMoveDone := 7 }

end Config

end Sys2Proof
end

