-- ==== Sys2Proof/Machine/State.lean ====
section
/-! DEFINITION. The state of the machine (`spec/10_state.md` R20, `spec/20_memory.md` R60), the inputs still to
come and the outputs of the last command (`spec/00_scope.md` R6), the reset state, and the reasons for a stop. -/

namespace Sys2Proof.Machine

/-- The run state (R38). -/
inductive RunState
  | running
  | halted
  | stopped
  deriving DecidableEq, Repr

/-- What happens between two instructions: one of the four commands of R6, or a byte that the environment
writes (R5). -/
inductive Input
  | reset
  | step
  | nmi
  | irq
  | busWrite (a : Addr) (v : Byte)
  deriving DecidableEq, Repr

/-- The `status` output of a `Step` (R6, `60_exceptions.md` R361). -/
inductive Status
  | ok
  | unsupported (op : Byte)
  deriving DecidableEq, Repr

/-- The outputs of a command (R6): `Reset` and `Nmi` return nothing, a `Step` its cycles and its status, an
`Irq` whether it was taken. -/
inductive Output
  | nothing
  | step (cycles : Nat) (status : Status)
  | irq (taken : Bool)
  deriving DecidableEq, Repr

/-- One bus operation of the core and the byte it moved: the four operations of `20_memory.md` R62. -/
inductive BusOp
  | read8 (bank : Byte) (off : Word) (v : Byte)
  | write8 (bank : Byte) (off : Word) (v : Byte)
  | readFlat24 (a : Addr) (v : Byte)
  | writeFlat24 (a : Addr) (v : Byte)
  deriving DecidableEq, Repr

/-- The state. The first eleven fields are the core's (R20), `mem` is the bus's (R60); the last five are the
model's own (INVENTORY.md, logs 4, 7, 8, 9). -/
structure State where
  /-- accumulator (R21) -/
  A : Word
  /-- index register (R22) -/
  X : Word
  /-- index register (R22) -/
  Y : Word
  /-- stack pointer (R23) -/
  S : Word
  /-- direct-page register (R24) -/
  D : Word
  /-- data-bank register (R25) -/
  DB : Byte
  /-- program-bank register (R26) -/
  PBR : Byte
  /-- program counter (R27) -/
  PC : Word
  /-- status byte (R28, R30) -/
  P : Byte
  /-- emulation bit (R29) -/
  E : Bool
  /-- run state (R38) -/
  run : RunState
  /-- memory (R60) -/
  mem : Memory
  /-- a `Reset` command has run (R41, log 8) -/
  live : Bool
  /-- commands and environment writes still to come (R5, R6, log 7) -/
  inputs : List Input
  /-- outputs of the last command (R6, log 9) -/
  out : Output
  /-- bus operations of the last command, in order (`20_memory.md` R67, log 9) -/
  bus : List BusOp
  /-- the configuration record (`spec/00_scope.md` R7), which nothing writes (log 4) -/
  params : Parameters
  deriving DecidableEq, Repr

/-- The register snapshot (`60_exceptions.md` R384, D37): the eleven items of R20. -/
structure Snapshot where
  A : Word
  X : Word
  Y : Word
  S : Word
  D : Word
  DB : Byte
  PBR : Byte
  PC : Word
  P : Byte
  E : Bool
  run : RunState
  deriving DecidableEq, Repr

/-- Reading the snapshot changes nothing (R384). -/
def State.snapshot (s : State) : Snapshot :=
  { A := s.A, X := s.X, Y := s.Y, S := s.S, D := s.D, DB := s.DB, PBR := s.PBR, PC := s.PC, P := s.P, E := s.E,
    run := s.run }

/-- The output `halted` (R38, R6). -/
def State.halted (s : State) : Bool := decide (s.run ≠ .running)

/-! ## Updates, one per field but `params`, which nothing writes -/

def State.setA (s : State) (v : Word) : State := { s with A := v }
def State.setX (s : State) (v : Word) : State := { s with X := v }
def State.setY (s : State) (v : Word) : State := { s with Y := v }
/-- The bare field; an instruction writes `S` through `State.writeS` (R36). -/
def State.setS (s : State) (v : Word) : State := { s with S := v }
def State.setD (s : State) (v : Word) : State := { s with D := v }
def State.setDB (s : State) (v : Byte) : State := { s with DB := v }
def State.setPBR (s : State) (v : Byte) : State := { s with PBR := v }
def State.setPC (s : State) (v : Word) : State := { s with PC := v }
/-- The bare field; a whole-`P` write goes through `State.writeP` (R35). -/
def State.setP (s : State) (v : Byte) : State := { s with P := v }
def State.setE (s : State) (v : Bool) : State := { s with E := v }
def State.setRun (s : State) (v : RunState) : State := { s with run := v }
def State.setMem (s : State) (v : Memory) : State := { s with mem := v }
def State.setLive (s : State) (v : Bool) : State := { s with live := v }
def State.setInputs (s : State) (v : List Input) : State := { s with inputs := v }
def State.setOut (s : State) (v : Output) : State := { s with out := v }
def State.setBus (s : State) (v : List BusOp) : State := { s with bus := v }

/-- The byte of `m` at offset `off` of bank 0, where the reset vector lies. -/
def Memory.bankZero (m : Memory) (off : Word) : Byte := m.read off.toNat

/-- The machine right after `Reset` (R40, `70_reset_and_hazards.md` R400) at the default parameters, with a memory that
lists nothing: `PC` is what the two bytes of the reset vector read as, and the bus has carried those two reads. -/
def State.reset : State :=
  let c := Config.parameters
  let lo := Memory.bankZero [] c.vecReset
  let hi := Memory.bankZero [] (c.vecReset + 1)
  { A := c.resetA, X := c.resetX &&& 0x00FF, Y := c.resetY &&& 0x00FF, S := 0x01FF, D := c.resetD, DB := c.resetDB,
    PBR := 0x00, PC := joinBytes hi lo, P := c.resetP, E := true, run := .running, mem := [], live := true,
    inputs := [], out := .nothing, bus := [.read8 0x00 c.vecReset lo, .read8 0x00 (c.vecReset + 1) hi], params := c }

/-- Why the machine stops with a fault. The core has no trap and no instruction of it faults
(`60_exceptions.md` R360). -/
inductive Fault
  /-- The strict driver of R361 and D35 ends the run at an unsupported opcode. Raised by `reportUnsupported`,
  and only if `Config.strictUnsupported` is set, which it is not. Safe: a run that stops proves no false claim. -/
  | unsupportedOpcode (op : Byte)
  deriving DecidableEq, Repr

/-- Why the machine refuses a step. -/
inductive Refusal
  /-- An instruction without a meaning in this model, rejected by name in `exec`. Safe. No arm uses it. -/
  | notModelled (mnemonic : String)
  /-- `Step`, `Nmi` or `Irq` before the first `Reset`, to which the spec gives no meaning (`10_state.md` R41,
  D34). Raised by `runInput`. Safe. -/
  | beforeFirstReset
  /-- The bytes at the program counter give no instruction. Raised by `stepCommand`; it does not happen, for
  every opcode decodes (`30_encoding.md` R94) and four bytes are always there. Safe. -/
  | undecodable
  deriving DecidableEq, Repr

/-- What a step or an instruction's meaning answers. -/
abbrev Result := Host.Outcome State Fault Refusal

end Sys2Proof.Machine
end

