-- ==== Sys2Proof/Machine/Flags.lean ====
section
/-! DEFINITION. The status byte and every computation on operands and flags, as functions of numbers alone
(`spec/10_state.md` R30, R37; `spec/42_arithmetic_logic.md`). A `w`-bit value is a word whose bits from `w`
up are 0 (`00_scope.md` R8); sums are natural numbers reduced as the rule says. -/

namespace Sys2Proof.Machine

/-! ## Widths -/

/-- `wA` or `wX` of a width flag: 1 is narrow (R9, D6). -/
def widthOf (flag : Bool) : Width := if flag then .narrow else .wide

/-- `w`, 8 or 16. -/
def widthBits : Width → Nat
  | .narrow => 8
  | .wide => 16

/-- `mask(w) = 2^w - 1` (R9). -/
def widthMask : Width → Word
  | .narrow => 0x00FF
  | .wide => 0xFFFF

/-- `sign(w) = 2^(w-1)` (R9). -/
def widthSign : Width → Word
  | .narrow => 0x0080
  | .wide => 0x8000

/-- `v[w-1:0]`. -/
def takeBits (w : Width) (v : Word) : Word := v &&& widthMask w

/-- A natural number reduced to `w` bits: `n & mask(w)` (R8). -/
def reduce (w : Width) (n : Nat) : Word := BitVec.ofNat 16 (n % 2 ^ widthBits w)

/-- `v[w-1]`, the sign bit of a `w`-bit value. -/
def signBit (w : Width) (v : Word) : Bool := v.getLsbD (widthBits w - 1)

/-- One byte as a 16-bit number: `zext_16` (R8). -/
def zeroExtend (v : Byte) : Word := v.setWidth 16

/-- `sext_16` of a byte, the displacement of a branch (R8, `40_addressing_modes.md` R144). -/
def signExtend (v : Byte) : Word := v.signExtend 16

/-- A flag as the number 0 or 1. -/
def bitNat (b : Bool) : Nat := if b then 1 else 0

/-- The value of an immediate at width `w` (R123). Fetched code gives an immediate of that very length
(`Instr.wellFormed`); one of the other length is cut or zero-extended (log 6). -/
def immValue (w : Width) : Imm → Word
  | .byte v => zeroExtend v
  | .word v => takeBits w v

/-! ## The status byte -/

/-- The eight flags of P (R30). -/
inductive Flag
  | C
  | Z
  | I
  | D
  | X
  | M
  | V
  | N
  deriving DecidableEq, Repr

/-- The bit of `P` that holds a flag (R30, D5). -/
def Flag.bit : Flag → Nat
  | .C => 0
  | .Z => 1
  | .I => 2
  | .D => 3
  | .X => 4
  | .M => 5
  | .V => 6
  | .N => 7

/-- The mask of a flag (R30). -/
def Flag.mask (f : Flag) : Byte := 1 <<< f.bit

/-- A flag of a status byte. -/
def getFlag (f : Flag) (p : Byte) : Bool := p.getLsbD f.bit

/-- A status byte with one flag written and the other seven kept. -/
def putFlag (f : Flag) (b : Bool) (p : Byte) : Byte := if b then p ||| f.mask else p &&& ~~~f.mask

/-- `SetNZ(v, w)` (R37): Z and N of a `w`-bit result, no other flag. -/
def flagsNZ (w : Width) (v : Word) (p : Byte) : Byte := putFlag .N (signBit w v) (putFlag .Z (v == 0) p)

/-! ## Add, subtract, compare -/

/-- `a + m + c` as a natural number (`42_arithmetic_logic.md` R221). -/
def addSum (a m : Word) (c : Bool) : Nat := a.toNat + m.toNat + bitNat c

/-- The result of ADC: the sum reduced to `w` bits (R221). -/
def addResult (w : Width) (a m : Word) (c : Bool) : Word := reduce w (addSum a m c)

/-- `P.C` after ADC: the sum does not fit `w` bits (R221). -/
def addCarry (w : Width) (a m : Word) (c : Bool) : Bool := decide ((widthMask w).toNat < addSum a m c)

/-- `P.V` after ADC: the operands' signs agree and the result's differs (R221). -/
def addOverflow (w : Width) (a m : Word) (c : Bool) : Bool :=
  (a ^^^ m) &&& widthSign w == 0 && (a ^^^ addResult w a m c) &&& widthSign w != 0

/-- `(~m) & M`, which SBC adds (R223). -/
def complement (w : Width) (m : Word) : Word := takeBits w (~~~m)

/-- What ADC adds, or SBC in its place (R223). -/
def addend (subtract : Bool) (w : Width) (m : Word) : Word := if subtract then complement w m else m

/-- The result of ADC or SBC: the binary one (R221, R223), and a free value where the operation is decimal (R222, U1,
log 21). -/
def sumResult (decimal subtract : Bool) (w : Width) (a m : Word) (c : Bool) : Word :=
  if decimal then takeBits w (Config.decimalResult subtract w a m c) else addResult w a (addend subtract w m) c

/-- `P.C` after ADC or SBC. -/
def sumCarry (decimal subtract : Bool) (w : Width) (a m : Word) (c : Bool) : Bool :=
  if decimal then Config.decimalCarry subtract w a m c else addCarry w a (addend subtract w m) c

/-- `P.V` after ADC or SBC. -/
def sumOverflow (decimal subtract : Bool) (w : Width) (a m : Word) (c : Bool) : Bool :=
  if decimal then Config.decimalOverflow subtract w a m c else addOverflow w a (addend subtract w m) c

/-- `P` after ADC or SBC (R221): N and Z are of the result. -/
def sumFlags (decimal subtract : Bool) (w : Width) (a m : Word) (c : Bool) (p : Byte) : Byte :=
  flagsNZ w (sumResult decimal subtract w a m c)
    (putFlag .V (sumOverflow decimal subtract w a m c) (putFlag .C (sumCarry decimal subtract w a m c) p))

/-- `P` after `Compare(a, m, w)` (R224): the flags of `a + ~m + 1`, V kept. -/
def compareFlags (w : Width) (a m : Word) (p : Byte) : Byte :=
  flagsNZ w (addResult w a (complement w m) true) (putFlag .C (addCarry w a (complement w m) true) p)

/-! ## Bit tests -/

/-- `P.Z` from the AND of accumulator and operand (R230, R231, R232). -/
def testFlags (a m : Word) (p : Byte) : Byte := putFlag .Z (a &&& m == 0) p

/-- `P` after BIT (R230): Z from the AND and, where `copyNV`, N and V from the top two bits of the operand. -/
def bitFlags (copyNV : Bool) (w : Width) (a m : Word) (p : Byte) : Byte :=
  let p := testFlags a m p
  if copyNV then putFlag .V (m.getLsbD (widthBits w - 2)) (putFlag .N (signBit w m) p) else p

/-! ## Shifts and steps: each gives the result and the carry out of the `w`-bit value `v` -/

/-- ASL (R233). -/
def shiftLeft (w : Width) (v : Word) : Word := takeBits w (v <<< 1)

/-- LSR (R234). -/
def shiftRight (v : Word) : Word := v >>> 1

/-- ROL (R235): the old carry enters bit 0. -/
def rotateLeft (w : Width) (c : Bool) (v : Word) : Word := takeBits w ((v <<< 1) ||| BitVec.ofNat 16 (bitNat c))

/-- ROR (R236): the old carry enters bit `w - 1`. -/
def rotateRight (w : Width) (c : Bool) (v : Word) : Word :=
  (v >>> 1) ||| (BitVec.ofNat 16 (bitNat c) <<< (widthBits w - 1))

/-- `P` after a shift or a rotate (R233 to R236): C is the bit shifted off, N and Z of the result. -/
def shiftFlags (w : Width) (carryOut : Bool) (r : Word) (p : Byte) : Byte := flagsNZ w r (putFlag .C carryOut p)

/-- `(v + 1) & M` (R237). -/
def increment (w : Width) (v : Word) : Word := takeBits w (v + 1)

/-- `(v - 1) & M` (R238). -/
def decrement (w : Width) (v : Word) : Word := takeBits w (v - 1)

end Sys2Proof.Machine
end

