-- ==== Sys2Proof/Machine/Ops.lean ====
section
/-! DEFINITION. The shared operations of the machine: the register and status helpers of `spec/10_state.md` R35
to R37, the memory helpers of `spec/20_memory.md` R70 to R78, taking an interrupt (`spec/60_exceptions.md` R368)
and returning from one (`spec/45_system.md` R342). An operation that reads memory gives the value and the state
in which the read stands in `State.bus`. -/

namespace Sys2Proof.Machine

/-! ## Registers and flags -/

/-- A flag of `P`. -/
def State.flag (s : State) (f : Flag) : Bool := getFlag f s.P

/-- Write one flag of `P` and no other (`44_mode_and_flags.md`, section 2). -/
def State.putFlag (s : State) (f : Flag) (b : Bool) : State := s.setP (Machine.putFlag f b s.P)

/-- `wA` (R9). -/
def State.wA (s : State) : Width := widthOf (s.flag .M)

/-- `wX` (R9). -/
def State.wX (s : State) : Width := widthOf (s.flag .X)

/-- `SetNZ(v, w)` (R37). -/
def State.setNZ (s : State) (w : Width) (v : Word) : State := s.setP (flagsNZ w v s.P)

/-- `A[w-1:0]` (R21). -/
def State.readA (s : State) (w : Width) : Word := takeBits w s.A

/-- `X[w-1:0]` (R22). -/
def State.readX (s : State) (w : Width) : Word := takeBits w s.X

/-- `Y[w-1:0]` (R22). -/
def State.readY (s : State) (w : Width) : Word := takeBits w s.Y

/-- `WriteA(v, w)` (`41_load_store_transfer.md` R160): a narrow write keeps `A[15:8]` (R32). -/
def State.writeA (s : State) (w : Width) (v : Word) : State :=
  match w with
  | .narrow => s.setA (joinBytes (highByte s.A) (lowByte v))
  | .wide => s.setA v

/-- `WriteX(v, w)` (R160): `zext_16` of a `w`-bit value. -/
def State.writeX (s : State) (w : Width) (v : Word) : State := s.setX (takeBits w v)

/-- `WriteY(v, w)` (R160). -/
def State.writeY (s : State) (w : Width) (v : Word) : State := s.setY (takeBits w v)

/-- `SetP(v)` (R35): in emulation mode M and X stay 1, and a narrow index width truncates X and Y at once (R33). -/
def State.writeP (s : State) (v : Byte) : State :=
  let t := s.setP (if s.E then v ||| 0x30 else v)
  if t.flag .X then (t.setX (t.X &&& 0x00FF)).setY (t.Y &&& 0x00FF) else t

/-- `SetS(v)` (R36): in emulation mode `S` stays in page 1. -/
def State.writeS (s : State) (v : Word) : State := s.setS (if s.E then 0x0100 ||| (v &&& 0x00FF) else v)

/-- The outputs of a `Step` that costs `n` cycles and ends with status `ok` (R6, R90). -/
def State.costs (s : State) (n : Nat) : State := s.setOut (.step n .ok)

/-- The coming ADC or SBC is decimal (R222): the part has decimal arithmetic and `P.D` is set. -/
def State.decimal (s : State) : Bool := s.params.decimalArith && s.flag .D

/-! ## The bus -/

/-- An effective address (`20_memory.md` R61): a bank and an offset kept apart, or one flat number. -/
inductive Ea
  | pair (bank : Byte) (off : Word)
  | flat (a : Addr)
  deriving DecidableEq, Repr

/-- `succ` (R61): a pair wraps in its bank; a flat address carries into the bank under `LONG_CARRY` (D13). -/
def Ea.succ (ea : Ea) (longCarry : Bool) : Ea :=
  match ea with
  | .pair bank off => .pair bank (off + 1)
  | .flat a => .flat (if longCarry then a + 1 else bankOf a ++ (offsetOf a + 1))

/-- `succ` as the parameters of `s` have it. -/
abbrev State.succ (s : State) (ea : Ea) : Ea := ea.succ s.params.longCarry

/-- The cell an effective address names, `(bank << 16) | offset` (R60); the two forms name one memory (R63). -/
def Ea.cell : Ea → Nat
  | .pair bank off => bank.toNat * 2 ^ 16 + off.toNat
  | .flat a => a.toNat

/-- The bus operation that reads `v` at an effective address (R62). -/
def Ea.readOp : Ea → Byte → BusOp
  | .pair bank off, v => .read8 bank off v
  | .flat a, v => .readFlat24 a v

/-- The bus operation that writes `v` at an effective address (R62). -/
def Ea.writeOp : Ea → Byte → BusOp
  | .pair bank off, v => .write8 bank off v
  | .flat a, v => .writeFlat24 a v

/-- The byte at an effective address, looked at without a bus operation. -/
def State.byteAt (s : State) (ea : Ea) : Byte := s.mem.read ea.cell

/-- `Rd(ea)`: one bus read (R62, R67). -/
def busRead (ea : Ea) (s : State) : Byte × State :=
  let v := s.byteAt ea
  (v, s.setBus (s.bus ++ [ea.readOp v]))

/-- `Wr(ea, v)`: one bus write (R62, R67). -/
def busWrite (ea : Ea) (v : Byte) (s : State) : State :=
  (s.setMem (s.mem.write ea.cell v)).setBus (s.bus ++ [ea.writeOp v])

/-- `Read16(ea)`, low byte first (R70). -/
def read16 (ea : Ea) (s : State) : Word × State :=
  let lo := busRead ea s
  let hi := busRead (s.succ ea) lo.2
  (joinBytes hi.1 lo.1, hi.2)

/-- `Read24(ea)`, ascending, the bank last (R71). -/
def read24 (ea : Ea) (s : State) : Addr × State :=
  let b0 := busRead ea s
  let b1 := busRead (s.succ ea) b0.2
  let b2 := busRead (s.succ (s.succ ea)) b1.2
  (joinAddr b2.1 b1.1 b0.1, b2.2)

/-- `ReadData(ea, w)` (R72). -/
def readData (ea : Ea) (w : Width) (s : State) : Word × State :=
  match w with
  | .narrow =>
    let r := busRead ea s
    (zeroExtend r.1, r.2)
  | .wide => read16 ea s

/-- `WriteData(ea, w, v)`, low byte first (R73). -/
def writeData (ea : Ea) (w : Width) (v : Word) (s : State) : State :=
  match w with
  | .narrow => busWrite ea (lowByte v) s
  | .wide => busWrite (s.succ ea) (highByte v) (busWrite ea (lowByte v) s)

/-! ## The stack -/

/-- `Push8(v)` (R74): write at `S` of bank 0, then step `S` down. -/
def push8 (v : Byte) (s : State) : State :=
  let t := busWrite (.pair 0x00 s.S) v s
  t.writeS (t.S - 1)

/-- `Pull8()` (R74): step `S` up, then read at `S` of bank 0. -/
def pull8 (s : State) : Byte × State :=
  let t := s.writeS (s.S + 1)
  busRead (.pair 0x00 t.S) t

/-- `Push16(v)`, high byte first (R76). -/
def push16 (v : Word) (s : State) : State := push8 (lowByte v) (push8 (highByte v) s)

/-- `Pull16()`, low byte first (R76). -/
def pull16 (s : State) : Word × State :=
  let lo := pull8 s
  let hi := pull8 lo.2
  (joinBytes hi.1 lo.1, hi.2)

/-- A push of a `w`-bit register (`41_load_store_transfer.md` R185 to R187). -/
def pushData (w : Width) (v : Word) (s : State) : State :=
  match w with
  | .narrow => push8 (lowByte v) s
  | .wide => push16 v s

/-- A pull of a `w`-bit register (R192 to R194). -/
def pullData (w : Width) (s : State) : Word × State :=
  match w with
  | .narrow =>
    let r := pull8 s
    (zeroExtend r.1, r.2)
  | .wide => pull16 s

/-! ## Instruction fetch -/

/-- `Fetch8()` (R75): one read at `PBR:PC`, and `PC` steps on inside the bank. -/
def fetch8 (s : State) : Byte × State :=
  let r := busRead (.pair s.PBR s.PC) s
  (r.1, r.2.setPC (r.2.PC + 1))

/-- Fetch `n` instruction bytes in ascending order, each once (R67, R75). -/
def fetchBytes (n : Nat) (s : State) : State :=
  match n with
  | 0 => s
  | k + 1 => fetchBytes k (fetch8 s).2

/-- The four bytes at `PBR:PC`, as many as the longest instruction has, looked at without a bus operation
(log 15). -/
def State.codeBytes (s : State) : List Byte :=
  [s.byteAt (.pair s.PBR s.PC), s.byteAt (.pair s.PBR (s.PC + 1)), s.byteAt (.pair s.PBR (s.PC + 2)),
   s.byteAt (.pair s.PBR (s.PC + 3))]

/-! ## Interrupts -/

/-- `ReadVector(v)` (R77). -/
def readVector (v : Word) (s : State) : Word × State := read16 (.pair 0x00 v) s

/-- `Interrupt(vecN, vecE, ret)` (`60_exceptions.md` R368), the entry sequence of NMI, IRQ, BRK and COP: push
`PBR` (native mode only), `ret` and the stored `P`; clear D, set I, clear `PBR`; load `PC` from the vector of
the current mode; run. -/
def interrupt (vecN vecE ret : Word) (s : State) : State :=
  let s1 := if s.E then s else push8 s.PBR s
  let s2 := push16 ret s1
  let s3 := push8 s2.P s2
  let s4 := ((s3.putFlag .D false).putFlag .I true).setPBR 0x00
  let r := readVector (if s4.E then vecE else vecN) s4
  (r.2.setPC r.1).setRun .running

/-- The return from an interrupt (`45_system.md` R342): pull `P` through `SetP`, then `PC`, then, in native
mode only, `PBR`. -/
def returnFromInterrupt (s : State) : State :=
  let p := pull8 s
  let s1 := p.2.writeP p.1
  let pc := pull16 s1
  let s2 := pc.2.setPC pc.1
  if s2.E then s2
  else
    let b := pull8 s2
    b.2.setPBR b.1

/-! ## The unsupported opcode -/

/-- `report UnsupportedOpcode(op)` (`60_exceptions.md` R361), in a state whose `PC` is already past the opcode
byte: the least cost, the status output, and no other change. Under the strict driver the run ends (D35, log 5). -/
def reportUnsupported (op : Byte) (s : State) : Result :=
  if Config.strictUnsupported then .fault (.unsupportedOpcode op)
  else .next (s.setOut (.step s.params.cycMin (.unsupported op)))

end Sys2Proof.Machine
end

