-- ==== Sys2Proof/Machine/Operands.lean ====
section
/-! DEFINITION. Addressing-mode resolution (`spec/40_addressing_modes.md`) and operand access
(`spec/41_load_store_transfer.md` R160). The operand bytes are already fetched; what is left of a mode are its
pointer reads and its address arithmetic. -/

namespace Sys2Proof.Machine

/-- The fifteen modes that name a place in memory, each with its operand (R124 to R138). -/
inductive Mode
  | dp (d : Byte)
  | dpX (d : Byte)
  | dpY (d : Byte)
  | indDp (d : Byte)
  | indDpX (d : Byte)
  | indDpY (d : Byte)
  | longIndDp (d : Byte)
  | longIndDpY (d : Byte)
  | abs (a : Word)
  | absX (a : Word)
  | absY (a : Word)
  | long (a : Addr)
  | longX (a : Addr)
  | sr (d : Byte)
  | indSrY (d : Byte)
  deriving DecidableEq, Repr

/-- Where an operand is read: in the instruction (R123) or in memory. -/
inductive Source
  | imm (v : Imm)
  | mem (m : Mode)
  deriving DecidableEq, Repr

/-- Where a shift, INC or DEC reads and writes: the accumulator (R122) or memory (`20_memory.md` R78). -/
inductive Target
  | acc
  | mem (m : Mode)
  deriving DecidableEq, Repr

/-- `LongAdd(a24, i16)` (R131): the sum carries into the bank under `LONG_CARRY` (D13). -/
def longAdd (longCarry : Bool) (a : Addr) (i : Word) : Addr :=
  if longCarry then a + i.setWidth 24 else bankOf a ++ (offsetOf a + i)

/-- `(D + d) & 0xFFFF` in bank 0 (R124). The same in both modes of E (D12). -/
def directPage (d : Byte) (s : State) : Ea := .pair 0x00 (s.D + zeroExtend d)

/-- `(D + d + i) & 0xFFFF` in bank 0 (R125, R126). -/
def directPageIndexed (d : Byte) (i : Word) (s : State) : Ea := .pair 0x00 (s.D + zeroExtend d + i)

/-- `(S + s) & 0xFFFF` in bank 0 (R137); not clamped to page 1 (D11). -/
def stackRelative (d : Byte) (s : State) : Ea := .pair 0x00 (s.S + zeroExtend d)

/-- The address in bank `DB` of a 16-bit pointer read at `place`, plus an index, wrapping in 16 bits (R127 to
R129, R138). -/
def pointerInDB (place : Ea) (i : Word) (s : State) : Ea × State :=
  let p := read16 place s
  (.pair s.DB (p.1 + i), p.2)

/-- The flat address of a 24-bit pointer read at `place`, plus an index (R130, R131). -/
def longPointer (place : Ea) (i : Word) (s : State) : Ea × State :=
  let p := read24 place s
  (.flat (longAdd s.params.longCarry p.1 i), p.2)

/-- The effective address of a mode, after its pointer reads (R124 to R138, summary R148). -/
def effectiveAddress (m : Mode) (s : State) : Ea × State :=
  match m with
  | .dp d => (directPage d s, s)
  | .dpX d => (directPageIndexed d s.X s, s)
  | .dpY d => (directPageIndexed d s.Y s, s)
  | .indDp d => pointerInDB (directPage d s) 0 s
  | .indDpX d => pointerInDB (directPageIndexed d s.X s) 0 s
  | .indDpY d => pointerInDB (directPage d s) s.Y s
  | .longIndDp d => longPointer (directPage d s) 0 s
  | .longIndDpY d => longPointer (directPage d s) s.Y s
  | .abs a => (.pair s.DB a, s)
  | .absX a => (.pair s.DB (a + s.X), s)
  | .absY a => (.pair s.DB (a + s.Y), s)
  | .long a => (.flat a, s)
  | .longX a => (.flat (longAdd s.params.longCarry a s.X), s)
  | .sr d => (stackRelative d s, s)
  | .indSrY d => pointerInDB (stackRelative d s) s.Y s

/-- `OperandRead(mode, w)` (R160): pointer reads, then the data read. -/
def operandRead (src : Source) (w : Width) (s : State) : Word × State :=
  match src with
  | .imm v => (immValue w v, s)
  | .mem m =>
    let ea := effectiveAddress m s
    readData ea.1 w ea.2

/-- `OperandWrite(mode, w, v)` (R160): pointer reads, then the data write. -/
def operandWrite (m : Mode) (w : Width) (v : Word) (s : State) : State :=
  let ea := effectiveAddress m s
  writeData ea.1 w v ea.2

/-- Read a `w`-bit operand, compute its result and the new status byte, write the result back where it was read:
in the accumulator (R122), or in memory, whose address is computed once (`20_memory.md` R78). -/
def modify (target : Target) (w : Width) (result : Word → Word) (flags : Word → Byte → Byte) (s : State) : State :=
  match target with
  | .acc =>
    let v := s.readA w
    (s.setP (flags v s.P)).writeA w (result v)
  | .mem m =>
    let ea := effectiveAddress m s
    let v := readData ea.1 w ea.2
    writeData ea.1 w (result v.1) (v.2.setP (flags v.1 v.2.P))

end Sys2Proof.Machine
end

