-- ==== Sys2Proof/Machine/Arithmetic.lean ====
section
/-! DEFINITION. Add, subtract and compare (`spec/42_arithmetic_logic.md` R221 to R226). `P.D` is read only where the
configuration has decimal arithmetic (R222), which the default has not. -/

namespace Sys2Proof.Machine

/-- The common part of ADC and SBC: the `w`-bit operand `m` and the carry go into the accumulator (R221, R223). -/
def addToA (subtract : Bool) (w : Width) (m : Word) (s : State) : Result :=
  let a := s.readA w
  let c := s.flag .C
  .next ((s.setP (sumFlags s.decimal subtract w a m c s.P)).writeA w (sumResult s.decimal subtract w a m c))

/-- ADC (R221). -/
def addWithCarry (src : Source) (s : State) : Result :=
  let m := operandRead src s.wA s
  addToA false s.wA m.1 m.2

/-- SBC (R223): ADC of the complement. -/
def subtractWithBorrow (src : Source) (s : State) : Result :=
  let m := operandRead src s.wA s
  addToA true s.wA m.1 m.2

/-- CMP (R224). -/
def compareA (src : Source) (s : State) : Result :=
  let m := operandRead src s.wA s
  .next (m.2.setP (compareFlags s.wA (s.readA s.wA) m.1 m.2.P))

/-- CPX (R225). -/
def compareX (src : Source) (s : State) : Result :=
  let m := operandRead src s.wX s
  .next (m.2.setP (compareFlags s.wX (s.readX s.wX) m.1 m.2.P))

/-- CPY (R226). -/
def compareY (src : Source) (s : State) : Result :=
  let m := operandRead src s.wX s
  .next (m.2.setP (compareFlags s.wX (s.readY s.wX) m.1 m.2.P))

/-- ADC `(dp,X)`, `0x61` (R221; mode R128). -/
def execAdcIndDpX (d : Byte) (s : State) : Result := addWithCarry (.mem (.indDpX d)) s

/-- ADC `sr,S`, `0x63` (R221; mode R137). -/
def execAdcSr (d : Byte) (s : State) : Result := addWithCarry (.mem (.sr d)) s

/-- ADC `dp`, `0x65` (R221; mode R124). -/
def execAdcDp (d : Byte) (s : State) : Result := addWithCarry (.mem (.dp d)) s

/-- ADC `[dp]`, `0x67` (R221; mode R130). -/
def execAdcLongIndDp (d : Byte) (s : State) : Result := addWithCarry (.mem (.longIndDp d)) s

/-- ADC `#`, `0x69` (R221; mode R123). -/
def execAdcImm (imm : Imm) (s : State) : Result := addWithCarry (.imm imm) s

/-- ADC `abs`, `0x6D` (R221; mode R132). -/
def execAdcAbs (a : Word) (s : State) : Result := addWithCarry (.mem (.abs a)) s

/-- ADC `long`, `0x6F` (R221; mode R135). -/
def execAdcLong (a : Addr) (s : State) : Result := addWithCarry (.mem (.long a)) s

/-- ADC `(dp),Y`, `0x71` (R221; mode R129). -/
def execAdcIndDpY (d : Byte) (s : State) : Result := addWithCarry (.mem (.indDpY d)) s

/-- ADC `(dp)`, `0x72` (R221; mode R127). -/
def execAdcIndDp (d : Byte) (s : State) : Result := addWithCarry (.mem (.indDp d)) s

/-- ADC `(sr,S),Y`, `0x73` (R221; mode R138). -/
def execAdcIndSrY (d : Byte) (s : State) : Result := addWithCarry (.mem (.indSrY d)) s

/-- ADC `dp,X`, `0x75` (R221; mode R125). -/
def execAdcDpX (d : Byte) (s : State) : Result := addWithCarry (.mem (.dpX d)) s

/-- ADC `[dp],Y`, `0x77` (R221; mode R131). -/
def execAdcLongIndDpY (d : Byte) (s : State) : Result := addWithCarry (.mem (.longIndDpY d)) s

/-- ADC `abs,Y`, `0x79` (R221; mode R134). -/
def execAdcAbsY (a : Word) (s : State) : Result := addWithCarry (.mem (.absY a)) s

/-- ADC `abs,X`, `0x7D` (R221; mode R133). -/
def execAdcAbsX (a : Word) (s : State) : Result := addWithCarry (.mem (.absX a)) s

/-- ADC `long,X`, `0x7F` (R221; mode R136). -/
def execAdcLongX (a : Addr) (s : State) : Result := addWithCarry (.mem (.longX a)) s

/-- SBC `(dp,X)`, `0xE1` (R223; mode R128). -/
def execSbcIndDpX (d : Byte) (s : State) : Result := subtractWithBorrow (.mem (.indDpX d)) s

/-- SBC `sr,S`, `0xE3` (R223; mode R137). -/
def execSbcSr (d : Byte) (s : State) : Result := subtractWithBorrow (.mem (.sr d)) s

/-- SBC `dp`, `0xE5` (R223; mode R124). -/
def execSbcDp (d : Byte) (s : State) : Result := subtractWithBorrow (.mem (.dp d)) s

/-- SBC `[dp]`, `0xE7` (R223; mode R130). -/
def execSbcLongIndDp (d : Byte) (s : State) : Result := subtractWithBorrow (.mem (.longIndDp d)) s

/-- SBC `#`, `0xE9` (R223; mode R123). -/
def execSbcImm (imm : Imm) (s : State) : Result := subtractWithBorrow (.imm imm) s

/-- SBC `abs`, `0xED` (R223; mode R132). -/
def execSbcAbs (a : Word) (s : State) : Result := subtractWithBorrow (.mem (.abs a)) s

/-- SBC `long`, `0xEF` (R223; mode R135). -/
def execSbcLong (a : Addr) (s : State) : Result := subtractWithBorrow (.mem (.long a)) s

/-- SBC `(dp),Y`, `0xF1` (R223; mode R129). -/
def execSbcIndDpY (d : Byte) (s : State) : Result := subtractWithBorrow (.mem (.indDpY d)) s

/-- SBC `(dp)`, `0xF2` (R223; mode R127). -/
def execSbcIndDp (d : Byte) (s : State) : Result := subtractWithBorrow (.mem (.indDp d)) s

/-- SBC `(sr,S),Y`, `0xF3` (R223; mode R138). -/
def execSbcIndSrY (d : Byte) (s : State) : Result := subtractWithBorrow (.mem (.indSrY d)) s

/-- SBC `dp,X`, `0xF5` (R223; mode R125). -/
def execSbcDpX (d : Byte) (s : State) : Result := subtractWithBorrow (.mem (.dpX d)) s

/-- SBC `[dp],Y`, `0xF7` (R223; mode R131). -/
def execSbcLongIndDpY (d : Byte) (s : State) : Result := subtractWithBorrow (.mem (.longIndDpY d)) s

/-- SBC `abs,Y`, `0xF9` (R223; mode R134). -/
def execSbcAbsY (a : Word) (s : State) : Result := subtractWithBorrow (.mem (.absY a)) s

/-- SBC `abs,X`, `0xFD` (R223; mode R133). -/
def execSbcAbsX (a : Word) (s : State) : Result := subtractWithBorrow (.mem (.absX a)) s

/-- SBC `long,X`, `0xFF` (R223; mode R136). -/
def execSbcLongX (a : Addr) (s : State) : Result := subtractWithBorrow (.mem (.longX a)) s

/-- CMP `(dp,X)`, `0xC1` (R224; mode R128). -/
def execCmpIndDpX (d : Byte) (s : State) : Result := compareA (.mem (.indDpX d)) s

/-- CMP `sr,S`, `0xC3` (R224; mode R137). -/
def execCmpSr (d : Byte) (s : State) : Result := compareA (.mem (.sr d)) s

/-- CMP `dp`, `0xC5` (R224; mode R124). -/
def execCmpDp (d : Byte) (s : State) : Result := compareA (.mem (.dp d)) s

/-- CMP `[dp]`, `0xC7` (R224; mode R130). -/
def execCmpLongIndDp (d : Byte) (s : State) : Result := compareA (.mem (.longIndDp d)) s

/-- CMP `#`, `0xC9` (R224; mode R123). -/
def execCmpImm (imm : Imm) (s : State) : Result := compareA (.imm imm) s

/-- CMP `abs`, `0xCD` (R224; mode R132). -/
def execCmpAbs (a : Word) (s : State) : Result := compareA (.mem (.abs a)) s

/-- CMP `long`, `0xCF` (R224; mode R135). -/
def execCmpLong (a : Addr) (s : State) : Result := compareA (.mem (.long a)) s

/-- CMP `(dp),Y`, `0xD1` (R224; mode R129). -/
def execCmpIndDpY (d : Byte) (s : State) : Result := compareA (.mem (.indDpY d)) s

/-- CMP `(dp)`, `0xD2` (R224; mode R127). -/
def execCmpIndDp (d : Byte) (s : State) : Result := compareA (.mem (.indDp d)) s

/-- CMP `(sr,S),Y`, `0xD3` (R224; mode R138). -/
def execCmpIndSrY (d : Byte) (s : State) : Result := compareA (.mem (.indSrY d)) s

/-- CMP `dp,X`, `0xD5` (R224; mode R125). -/
def execCmpDpX (d : Byte) (s : State) : Result := compareA (.mem (.dpX d)) s

/-- CMP `[dp],Y`, `0xD7` (R224; mode R131). -/
def execCmpLongIndDpY (d : Byte) (s : State) : Result := compareA (.mem (.longIndDpY d)) s

/-- CMP `abs,Y`, `0xD9` (R224; mode R134). -/
def execCmpAbsY (a : Word) (s : State) : Result := compareA (.mem (.absY a)) s

/-- CMP `abs,X`, `0xDD` (R224; mode R133). -/
def execCmpAbsX (a : Word) (s : State) : Result := compareA (.mem (.absX a)) s

/-- CMP `long,X`, `0xDF` (R224; mode R136). -/
def execCmpLongX (a : Addr) (s : State) : Result := compareA (.mem (.longX a)) s

/-- CPX `#`, `0xE0` (R225; mode R123). -/
def execCpxImm (imm : Imm) (s : State) : Result := compareX (.imm imm) s

/-- CPX `dp`, `0xE4` (R225; mode R124). -/
def execCpxDp (d : Byte) (s : State) : Result := compareX (.mem (.dp d)) s

/-- CPX `abs`, `0xEC` (R225; mode R132). -/
def execCpxAbs (a : Word) (s : State) : Result := compareX (.mem (.abs a)) s

/-- CPY `#`, `0xC0` (R226; mode R123). -/
def execCpyImm (imm : Imm) (s : State) : Result := compareY (.imm imm) s

/-- CPY `dp`, `0xC4` (R226; mode R124). -/
def execCpyDp (d : Byte) (s : State) : Result := compareY (.mem (.dp d)) s

/-- CPY `abs`, `0xCC` (R226; mode R132). -/
def execCpyAbs (a : Word) (s : State) : Result := compareY (.mem (.abs a)) s

end Sys2Proof.Machine
end

