-- ==== Sys2Proof/Machine/BlockMove.lean ====
section
/-! DEFINITION. Block moves (`spec/41_load_store_transfer.md` R210 to R212). -/

namespace Sys2Proof.Machine

/-- One `Step` of a block move (R210), in a state whose `PC` is past the instruction's three bytes: move one byte
from `src:X` to `dst:Y`, step both pointers by `delta` at width `wX`, count `A` down in 16 bits, load `DB`; while
`A` is not 0, `PC` goes back to the opcode byte (log 17). -/
def blockMove (delta : Word) (dst src : Byte) (s : State) : Result :=
  let r := busRead (.pair src s.X) s
  let t := busWrite (.pair dst s.Y) r.1 r.2
  let u := (((t.setX (takeBits s.wX (s.X + delta))).setY (takeBits s.wX (s.Y + delta))).setA (s.A - 1)).setDB dst
  if u.A != 0 then .next ((u.setPC (s.PC - 3)).costs s.params.cycMoveContinue)
  else .next (u.costs s.params.cycMoveDone)

/-- MVN `dst,src`, `0x54` (R211; mode R146). -/
def execMvn (dst : Byte) (src : Byte) (s : State) : Result := blockMove 1 dst src s

/-- MVP `dst,src`, `0x44` (R212; mode R146). -/
def execMvp (dst : Byte) (src : Byte) (s : State) : Result := blockMove (-1) dst src s

end Sys2Proof.Machine
end

