-- ==== Sys2Proof/Machine/Control.lean ====
section
/-! DEFINITION. Branches, jumps, calls and returns (`spec/43_control_transfer.md`). `PC` is already past the
instruction (R270). No flag changes. -/

namespace Sys2Proof.Machine

/-- `Branch(cond)` (R271), in a state whose `PC` is past the two bytes: the target wraps in the bank (R144). -/
def branch (cond : Bool) (r : Byte) (s : State) : Result :=
  .next (if cond then s.setPC (s.PC + signExtend r) else s)

/-- The pointer of `(abs,X)`, in the program bank (R140). -/
def programPointer (a : Word) (s : State) : Ea := .pair s.PBR (a + s.X)

/-- BPL `rel8`, `0x10` (R272; mode R144). -/
def execBpl (r : Byte) (s : State) : Result := branch (!s.flag .N) r s

/-- BMI `rel8`, `0x30` (R273; mode R144). -/
def execBmi (r : Byte) (s : State) : Result := branch (s.flag .N) r s

/-- BVC `rel8`, `0x50` (R274; mode R144). -/
def execBvc (r : Byte) (s : State) : Result := branch (!s.flag .V) r s

/-- BVS `rel8`, `0x70` (R275; mode R144). -/
def execBvs (r : Byte) (s : State) : Result := branch (s.flag .V) r s

/-- BCC `rel8`, `0x90` (R276; mode R144). -/
def execBcc (r : Byte) (s : State) : Result := branch (!s.flag .C) r s

/-- BCS `rel8`, `0xB0` (R277; mode R144). -/
def execBcs (r : Byte) (s : State) : Result := branch (s.flag .C) r s

/-- BNE `rel8`, `0xD0` (R278; mode R144). -/
def execBne (r : Byte) (s : State) : Result := branch (!s.flag .Z) r s

/-- BEQ `rel8`, `0xF0` (R279; mode R144). -/
def execBeq (r : Byte) (s : State) : Result := branch (s.flag .Z) r s

/-- BRA `rel8`, `0x80` (R280; mode R144). -/
def execBra (r : Byte) (s : State) : Result := branch true r s

/-- BRL `rel16`, `0x82` (R281; mode R145). -/
def execBrl (r : Word) (s : State) : Result := .next (s.setPC (s.PC + r))

/-- JMP `abs`, `0x4C` (R282; mode R142). -/
def execJmpAbs (a : Word) (s : State) : Result := .next (s.setPC a)

/-- JMP `(abs)`, `0x6C` (R282; mode R139). -/
def execJmpInd (a : Word) (s : State) : Result :=
  let p := read16 (.pair 0x00 a) s
  .next (p.2.setPC p.1)

/-- JMP `(abs,X)`, `0x7C` (R282; mode R140). -/
def execJmpIndX (a : Word) (s : State) : Result :=
  let p := read16 (programPointer a s) s
  .next (p.2.setPC p.1)

/-- JML `long`, `0x5C` (R283; mode R143). -/
def execJmlLong (a : Addr) (s : State) : Result := .next ((s.setPBR (bankOf a)).setPC (offsetOf a))

/-- JML `[abs]`, `0xDC` (R283; mode R141). -/
def execJmlLongInd (a : Word) (s : State) : Result :=
  let p := read24 (.pair 0x00 a) s
  .next ((p.2.setPBR (bankOf p.1)).setPC (offsetOf p.1))

/-- JSR `abs`, `0x20` (R284; mode R142). -/
def execJsrAbs (a : Word) (s : State) : Result := .next ((push16 (s.PC - 1) s).setPC a)

/-- JSR `(abs,X)`, `0xFC` (R284; mode R140). -/
def execJsrIndX (a : Word) (s : State) : Result :=
  let t := push16 (s.PC - 1) s
  let p := read16 (programPointer a t) t
  .next (p.2.setPC p.1)

/-- JSL `long`, `0x22` (R285; mode R143). -/
def execJsl (a : Addr) (s : State) : Result :=
  let t := push16 (s.PC - 1) (push8 s.PBR s)
  .next ((t.setPBR (bankOf a)).setPC (offsetOf a))

/-- RTS, `0x60` (R286). -/
def execRts (s : State) : Result :=
  let p := pull16 s
  .next (p.2.setPC (p.1 + 1))

/-- RTL, `0x6B` (R287). -/
def execRtl (s : State) : Result :=
  let p := pull16 s
  let k := pull8 (p.2.setPC (p.1 + 1))
  .next (k.2.setPBR k.1)

end Sys2Proof.Machine
end

