-- ==== Sys2Proof/Machine/LoadStore.lean ====
section
/-! DEFINITION. Loads and stores (`spec/41_load_store_transfer.md` R161 to R167). -/

namespace Sys2Proof.Machine

/-! ## Loads -/

/-- LDA (R161): read the operand at width `wA`, write the accumulator, set N and Z. -/
def loadA (src : Source) (s : State) : Result :=
  let v := operandRead src s.wA s
  .next ((v.2.writeA s.wA v.1).setNZ s.wA v.1)

/-- LDX (R162), at width `wX`. -/
def loadX (src : Source) (s : State) : Result :=
  let v := operandRead src s.wX s
  .next ((v.2.writeX s.wX v.1).setNZ s.wX v.1)

/-- LDY (R163), at width `wX`. -/
def loadY (src : Source) (s : State) : Result :=
  let v := operandRead src s.wX s
  .next ((v.2.writeY s.wX v.1).setNZ s.wX v.1)

/-- LDA `(dp,X)`, `0xA1` (R161; mode R128). -/
def execLdaIndDpX (d : Byte) (s : State) : Result := loadA (.mem (.indDpX d)) s

/-- LDA `sr,S`, `0xA3` (R161; mode R137). -/
def execLdaSr (d : Byte) (s : State) : Result := loadA (.mem (.sr d)) s

/-- LDA `dp`, `0xA5` (R161; mode R124). -/
def execLdaDp (d : Byte) (s : State) : Result := loadA (.mem (.dp d)) s

/-- LDA `[dp]`, `0xA7` (R161; mode R130). -/
def execLdaLongIndDp (d : Byte) (s : State) : Result := loadA (.mem (.longIndDp d)) s

/-- LDA `#`, `0xA9` (R161; mode R123). -/
def execLdaImm (imm : Imm) (s : State) : Result := loadA (.imm imm) s

/-- LDA `abs`, `0xAD` (R161; mode R132). -/
def execLdaAbs (a : Word) (s : State) : Result := loadA (.mem (.abs a)) s

/-- LDA `long`, `0xAF` (R161; mode R135). -/
def execLdaLong (a : Addr) (s : State) : Result := loadA (.mem (.long a)) s

/-- LDA `(dp),Y`, `0xB1` (R161; mode R129). -/
def execLdaIndDpY (d : Byte) (s : State) : Result := loadA (.mem (.indDpY d)) s

/-- LDA `(dp)`, `0xB2` (R161; mode R127). -/
def execLdaIndDp (d : Byte) (s : State) : Result := loadA (.mem (.indDp d)) s

/-- LDA `(sr,S),Y`, `0xB3` (R161; mode R138). -/
def execLdaIndSrY (d : Byte) (s : State) : Result := loadA (.mem (.indSrY d)) s

/-- LDA `dp,X`, `0xB5` (R161; mode R125). -/
def execLdaDpX (d : Byte) (s : State) : Result := loadA (.mem (.dpX d)) s

/-- LDA `[dp],Y`, `0xB7` (R161; mode R131). -/
def execLdaLongIndDpY (d : Byte) (s : State) : Result := loadA (.mem (.longIndDpY d)) s

/-- LDA `abs,Y`, `0xB9` (R161; mode R134). -/
def execLdaAbsY (a : Word) (s : State) : Result := loadA (.mem (.absY a)) s

/-- LDA `abs,X`, `0xBD` (R161; mode R133). -/
def execLdaAbsX (a : Word) (s : State) : Result := loadA (.mem (.absX a)) s

/-- LDA `long,X`, `0xBF` (R161; mode R136). -/
def execLdaLongX (a : Addr) (s : State) : Result := loadA (.mem (.longX a)) s

/-- LDX `#`, `0xA2` (R162; mode R123). -/
def execLdxImm (imm : Imm) (s : State) : Result := loadX (.imm imm) s

/-- LDX `dp`, `0xA6` (R162; mode R124). -/
def execLdxDp (d : Byte) (s : State) : Result := loadX (.mem (.dp d)) s

/-- LDX `abs`, `0xAE` (R162; mode R132). -/
def execLdxAbs (a : Word) (s : State) : Result := loadX (.mem (.abs a)) s

/-- LDX `dp,Y`, `0xB6` (R162; mode R126). -/
def execLdxDpY (d : Byte) (s : State) : Result := loadX (.mem (.dpY d)) s

/-- LDX `abs,Y`, `0xBE` (R162; mode R134). -/
def execLdxAbsY (a : Word) (s : State) : Result := loadX (.mem (.absY a)) s

/-- LDY `#`, `0xA0` (R163; mode R123). -/
def execLdyImm (imm : Imm) (s : State) : Result := loadY (.imm imm) s

/-- LDY `dp`, `0xA4` (R163; mode R124). -/
def execLdyDp (d : Byte) (s : State) : Result := loadY (.mem (.dp d)) s

/-- LDY `abs`, `0xAC` (R163; mode R132). -/
def execLdyAbs (a : Word) (s : State) : Result := loadY (.mem (.abs a)) s

/-- LDY `dp,X`, `0xB4` (R163; mode R125). -/
def execLdyDpX (d : Byte) (s : State) : Result := loadY (.mem (.dpX d)) s

/-- LDY `abs,X`, `0xBC` (R163; mode R133). -/
def execLdyAbsX (a : Word) (s : State) : Result := loadY (.mem (.absX a)) s

/-! ## Stores: no flag changes, and the destination is not read -/

/-- STA (R164). -/
def storeA (m : Mode) (s : State) : Result := .next (operandWrite m s.wA (s.readA s.wA) s)

/-- STX (R165). -/
def storeX (m : Mode) (s : State) : Result := .next (operandWrite m s.wX (s.readX s.wX) s)

/-- STY (R166). -/
def storeY (m : Mode) (s : State) : Result := .next (operandWrite m s.wX (s.readY s.wX) s)

/-- STZ (R167). -/
def storeZero (m : Mode) (s : State) : Result := .next (operandWrite m s.wA 0 s)

/-- STA `(dp,X)`, `0x81` (R164; mode R128). -/
def execStaIndDpX (d : Byte) (s : State) : Result := storeA (.indDpX d) s

/-- STA `sr,S`, `0x83` (R164; mode R137). -/
def execStaSr (d : Byte) (s : State) : Result := storeA (.sr d) s

/-- STA `dp`, `0x85` (R164; mode R124). -/
def execStaDp (d : Byte) (s : State) : Result := storeA (.dp d) s

/-- STA `[dp]`, `0x87` (R164; mode R130). -/
def execStaLongIndDp (d : Byte) (s : State) : Result := storeA (.longIndDp d) s

/-- STA `abs`, `0x8D` (R164; mode R132). -/
def execStaAbs (a : Word) (s : State) : Result := storeA (.abs a) s

/-- STA `long`, `0x8F` (R164; mode R135). -/
def execStaLong (a : Addr) (s : State) : Result := storeA (.long a) s

/-- STA `(dp),Y`, `0x91` (R164; mode R129). -/
def execStaIndDpY (d : Byte) (s : State) : Result := storeA (.indDpY d) s

/-- STA `(dp)`, `0x92` (R164; mode R127). -/
def execStaIndDp (d : Byte) (s : State) : Result := storeA (.indDp d) s

/-- STA `(sr,S),Y`, `0x93` (R164; mode R138). -/
def execStaIndSrY (d : Byte) (s : State) : Result := storeA (.indSrY d) s

/-- STA `dp,X`, `0x95` (R164; mode R125). -/
def execStaDpX (d : Byte) (s : State) : Result := storeA (.dpX d) s

/-- STA `[dp],Y`, `0x97` (R164; mode R131). -/
def execStaLongIndDpY (d : Byte) (s : State) : Result := storeA (.longIndDpY d) s

/-- STA `abs,Y`, `0x99` (R164; mode R134). -/
def execStaAbsY (a : Word) (s : State) : Result := storeA (.absY a) s

/-- STA `abs,X`, `0x9D` (R164; mode R133). -/
def execStaAbsX (a : Word) (s : State) : Result := storeA (.absX a) s

/-- STA `long,X`, `0x9F` (R164; mode R136). -/
def execStaLongX (a : Addr) (s : State) : Result := storeA (.longX a) s

/-- STX `dp`, `0x86` (R165; mode R124). -/
def execStxDp (d : Byte) (s : State) : Result := storeX (.dp d) s

/-- STX `abs`, `0x8E` (R165; mode R132). -/
def execStxAbs (a : Word) (s : State) : Result := storeX (.abs a) s

/-- STX `dp,Y`, `0x96` (R165; mode R126). -/
def execStxDpY (d : Byte) (s : State) : Result := storeX (.dpY d) s

/-- STY `dp`, `0x84` (R166; mode R124). -/
def execStyDp (d : Byte) (s : State) : Result := storeY (.dp d) s

/-- STY `abs`, `0x8C` (R166; mode R132). -/
def execStyAbs (a : Word) (s : State) : Result := storeY (.abs a) s

/-- STY `dp,X`, `0x94` (R166; mode R125). -/
def execStyDpX (d : Byte) (s : State) : Result := storeY (.dpX d) s

/-- STZ `dp`, `0x64` (R167; mode R124). -/
def execStzDp (d : Byte) (s : State) : Result := storeZero (.dp d) s

/-- STZ `dp,X`, `0x74` (R167; mode R125). -/
def execStzDpX (d : Byte) (s : State) : Result := storeZero (.dpX d) s

/-- STZ `abs`, `0x9C` (R167; mode R132). -/
def execStzAbs (a : Word) (s : State) : Result := storeZero (.abs a) s

/-- STZ `abs,X`, `0x9E` (R167; mode R133). -/
def execStzAbsX (a : Word) (s : State) : Result := storeZero (.absX a) s

end Sys2Proof.Machine
end

