-- ==== Sys2Proof/Machine/Logic.lean ====
section
/-! DEFINITION. Logic and bit tests (`spec/42_arithmetic_logic.md` R227 to R232). -/

namespace Sys2Proof.Machine

/-- AND, ORA and EOR (R227 to R229): combine accumulator and operand, write the accumulator, set N and Z. -/
def logicalA (f : Word → Word → Word) (src : Source) (s : State) : Result :=
  let m := operandRead src s.wA s
  let r := f (s.readA s.wA) m.1
  .next ((m.2.writeA s.wA r).setNZ s.wA r)

/-- AND (R227). -/
def andA (src : Source) (s : State) : Result := logicalA (fun a m => a &&& m) src s

/-- ORA (R228). -/
def orA (src : Source) (s : State) : Result := logicalA (fun a m => a ||| m) src s

/-- EOR (R229). -/
def exclusiveOrA (src : Source) (s : State) : Result := logicalA (fun a m => a ^^^ m) src s

/-- BIT (R230): the accumulator is not touched; whether N and V are copied is `copyNV`. -/
def bitTest (copyNV : Bool) (src : Source) (s : State) : Result :=
  let m := operandRead src s.wA s
  .next (m.2.setP (bitFlags copyNV s.wA (s.readA s.wA) m.1 m.2.P))

/-- TSB (R231): Z from the AND, memory gets `m | a`. -/
def testAndSet (m : Mode) (s : State) : Result :=
  let a := s.readA s.wA
  .next (modify (.mem m) s.wA (fun v => v ||| a) (fun v p => testFlags a v p) s)

/-- TRB (R232): Z from the AND, memory gets `m & ~a`. -/
def testAndReset (m : Mode) (s : State) : Result :=
  let a := s.readA s.wA
  .next (modify (.mem m) s.wA (fun v => v &&& complement s.wA a) (fun v p => testFlags a v p) s)

/-- AND `(dp,X)`, `0x21` (R227; mode R128). -/
def execAndIndDpX (d : Byte) (s : State) : Result := andA (.mem (.indDpX d)) s

/-- AND `sr,S`, `0x23` (R227; mode R137). -/
def execAndSr (d : Byte) (s : State) : Result := andA (.mem (.sr d)) s

/-- AND `dp`, `0x25` (R227; mode R124). -/
def execAndDp (d : Byte) (s : State) : Result := andA (.mem (.dp d)) s

/-- AND `[dp]`, `0x27` (R227; mode R130). -/
def execAndLongIndDp (d : Byte) (s : State) : Result := andA (.mem (.longIndDp d)) s

/-- AND `#`, `0x29` (R227; mode R123). -/
def execAndImm (imm : Imm) (s : State) : Result := andA (.imm imm) s

/-- AND `abs`, `0x2D` (R227; mode R132). -/
def execAndAbs (a : Word) (s : State) : Result := andA (.mem (.abs a)) s

/-- AND `long`, `0x2F` (R227; mode R135). -/
def execAndLong (a : Addr) (s : State) : Result := andA (.mem (.long a)) s

/-- AND `(dp),Y`, `0x31` (R227; mode R129). -/
def execAndIndDpY (d : Byte) (s : State) : Result := andA (.mem (.indDpY d)) s

/-- AND `(dp)`, `0x32` (R227; mode R127). -/
def execAndIndDp (d : Byte) (s : State) : Result := andA (.mem (.indDp d)) s

/-- AND `(sr,S),Y`, `0x33` (R227; mode R138). -/
def execAndIndSrY (d : Byte) (s : State) : Result := andA (.mem (.indSrY d)) s

/-- AND `dp,X`, `0x35` (R227; mode R125). -/
def execAndDpX (d : Byte) (s : State) : Result := andA (.mem (.dpX d)) s

/-- AND `[dp],Y`, `0x37` (R227; mode R131). -/
def execAndLongIndDpY (d : Byte) (s : State) : Result := andA (.mem (.longIndDpY d)) s

/-- AND `abs,Y`, `0x39` (R227; mode R134). -/
def execAndAbsY (a : Word) (s : State) : Result := andA (.mem (.absY a)) s

/-- AND `abs,X`, `0x3D` (R227; mode R133). -/
def execAndAbsX (a : Word) (s : State) : Result := andA (.mem (.absX a)) s

/-- AND `long,X`, `0x3F` (R227; mode R136). -/
def execAndLongX (a : Addr) (s : State) : Result := andA (.mem (.longX a)) s

/-- ORA `(dp,X)`, `0x01` (R228; mode R128). -/
def execOraIndDpX (d : Byte) (s : State) : Result := orA (.mem (.indDpX d)) s

/-- ORA `sr,S`, `0x03` (R228; mode R137). -/
def execOraSr (d : Byte) (s : State) : Result := orA (.mem (.sr d)) s

/-- ORA `dp`, `0x05` (R228; mode R124). -/
def execOraDp (d : Byte) (s : State) : Result := orA (.mem (.dp d)) s

/-- ORA `[dp]`, `0x07` (R228; mode R130). -/
def execOraLongIndDp (d : Byte) (s : State) : Result := orA (.mem (.longIndDp d)) s

/-- ORA `#`, `0x09` (R228; mode R123). -/
def execOraImm (imm : Imm) (s : State) : Result := orA (.imm imm) s

/-- ORA `abs`, `0x0D` (R228; mode R132). -/
def execOraAbs (a : Word) (s : State) : Result := orA (.mem (.abs a)) s

/-- ORA `long`, `0x0F` (R228; mode R135). -/
def execOraLong (a : Addr) (s : State) : Result := orA (.mem (.long a)) s

/-- ORA `(dp),Y`, `0x11` (R228; mode R129). -/
def execOraIndDpY (d : Byte) (s : State) : Result := orA (.mem (.indDpY d)) s

/-- ORA `(dp)`, `0x12` (R228; mode R127). -/
def execOraIndDp (d : Byte) (s : State) : Result := orA (.mem (.indDp d)) s

/-- ORA `(sr,S),Y`, `0x13` (R228; mode R138). -/
def execOraIndSrY (d : Byte) (s : State) : Result := orA (.mem (.indSrY d)) s

/-- ORA `dp,X`, `0x15` (R228; mode R125). -/
def execOraDpX (d : Byte) (s : State) : Result := orA (.mem (.dpX d)) s

/-- ORA `[dp],Y`, `0x17` (R228; mode R131). -/
def execOraLongIndDpY (d : Byte) (s : State) : Result := orA (.mem (.longIndDpY d)) s

/-- ORA `abs,Y`, `0x19` (R228; mode R134). -/
def execOraAbsY (a : Word) (s : State) : Result := orA (.mem (.absY a)) s

/-- ORA `abs,X`, `0x1D` (R228; mode R133). -/
def execOraAbsX (a : Word) (s : State) : Result := orA (.mem (.absX a)) s

/-- ORA `long,X`, `0x1F` (R228; mode R136). -/
def execOraLongX (a : Addr) (s : State) : Result := orA (.mem (.longX a)) s

/-- EOR `(dp,X)`, `0x41` (R229; mode R128). -/
def execEorIndDpX (d : Byte) (s : State) : Result := exclusiveOrA (.mem (.indDpX d)) s

/-- EOR `sr,S`, `0x43` (R229; mode R137). -/
def execEorSr (d : Byte) (s : State) : Result := exclusiveOrA (.mem (.sr d)) s

/-- EOR `dp`, `0x45` (R229; mode R124). -/
def execEorDp (d : Byte) (s : State) : Result := exclusiveOrA (.mem (.dp d)) s

/-- EOR `[dp]`, `0x47` (R229; mode R130). -/
def execEorLongIndDp (d : Byte) (s : State) : Result := exclusiveOrA (.mem (.longIndDp d)) s

/-- EOR `#`, `0x49` (R229; mode R123). -/
def execEorImm (imm : Imm) (s : State) : Result := exclusiveOrA (.imm imm) s

/-- EOR `abs`, `0x4D` (R229; mode R132). -/
def execEorAbs (a : Word) (s : State) : Result := exclusiveOrA (.mem (.abs a)) s

/-- EOR `long`, `0x4F` (R229; mode R135). -/
def execEorLong (a : Addr) (s : State) : Result := exclusiveOrA (.mem (.long a)) s

/-- EOR `(dp),Y`, `0x51` (R229; mode R129). -/
def execEorIndDpY (d : Byte) (s : State) : Result := exclusiveOrA (.mem (.indDpY d)) s

/-- EOR `(dp)`, `0x52` (R229; mode R127). -/
def execEorIndDp (d : Byte) (s : State) : Result := exclusiveOrA (.mem (.indDp d)) s

/-- EOR `(sr,S),Y`, `0x53` (R229; mode R138). -/
def execEorIndSrY (d : Byte) (s : State) : Result := exclusiveOrA (.mem (.indSrY d)) s

/-- EOR `dp,X`, `0x55` (R229; mode R125). -/
def execEorDpX (d : Byte) (s : State) : Result := exclusiveOrA (.mem (.dpX d)) s

/-- EOR `[dp],Y`, `0x57` (R229; mode R131). -/
def execEorLongIndDpY (d : Byte) (s : State) : Result := exclusiveOrA (.mem (.longIndDpY d)) s

/-- EOR `abs,Y`, `0x59` (R229; mode R134). -/
def execEorAbsY (a : Word) (s : State) : Result := exclusiveOrA (.mem (.absY a)) s

/-- EOR `abs,X`, `0x5D` (R229; mode R133). -/
def execEorAbsX (a : Word) (s : State) : Result := exclusiveOrA (.mem (.absX a)) s

/-- EOR `long,X`, `0x5F` (R229; mode R136). -/
def execEorLongX (a : Addr) (s : State) : Result := exclusiveOrA (.mem (.longX a)) s

/-- BIT `dp`, `0x24` (R230; mode R124). -/
def execBitDp (d : Byte) (s : State) : Result := bitTest true (.mem (.dp d)) s

/-- BIT `abs`, `0x2C` (R230; mode R132). -/
def execBitAbs (a : Word) (s : State) : Result := bitTest true (.mem (.abs a)) s

/-- BIT `dp,X`, `0x34` (R230; mode R125). -/
def execBitDpX (d : Byte) (s : State) : Result := bitTest true (.mem (.dpX d)) s

/-- BIT `abs,X`, `0x3C` (R230; mode R133). -/
def execBitAbsX (a : Word) (s : State) : Result := bitTest true (.mem (.absX a)) s

/-- BIT `#`, `0x89` (R230; mode R123). -/
def execBitImm (imm : Imm) (s : State) : Result := bitTest s.params.bitImmWritesNV (.imm imm) s

/-- TSB `dp`, `0x04` (R231; mode R124). -/
def execTsbDp (d : Byte) (s : State) : Result := testAndSet (.dp d) s

/-- TSB `abs`, `0x0C` (R231; mode R132). -/
def execTsbAbs (a : Word) (s : State) : Result := testAndSet (.abs a) s

/-- TRB `dp`, `0x14` (R232; mode R124). -/
def execTrbDp (d : Byte) (s : State) : Result := testAndReset (.dp d) s

/-- TRB `abs`, `0x1C` (R232; mode R132). -/
def execTrbAbs (a : Word) (s : State) : Result := testAndReset (.abs a) s

end Sys2Proof.Machine
end

