-- ==== Sys2Proof/Machine/ModeFlags.lean ====
section
/-! DEFINITION. Mode switch, width control, flag instructions, NOP, WDM and XBA (`spec/44_mode_and_flags.md`). -/

namespace Sys2Proof.Machine

/-! ## Mode and widths -/

/-- XCE, `0xFB` (R310). -/
def execXce (s : State) : Result :=
  let t := (s.putFlag .C s.E).setE (s.flag .C)
  if t.E then
    let u := t.writeP t.P
    .next (u.writeS u.S)
  else .next t

/-- REP `#`, `0xC2` (R311; mode R123). -/
def execRep (imm : Byte) (s : State) : Result := .next (s.writeP (s.P &&& ~~~imm))

/-- SEP `#`, `0xE2` (R312; mode R123). -/
def execSep (imm : Byte) (s : State) : Result := .next (s.writeP (s.P ||| imm))

/-! ## One flag, and no other bit of `P` -/

/-- CLC, `0x18` (R313). -/
def execClc (s : State) : Result := .next (s.putFlag .C false)

/-- SEC, `0x38` (R314). -/
def execSec (s : State) : Result := .next (s.putFlag .C true)

/-- CLI, `0x58` (R315). -/
def execCli (s : State) : Result := .next (s.putFlag .I false)

/-- SEI, `0x78` (R316). -/
def execSei (s : State) : Result := .next (s.putFlag .I true)

/-- CLD, `0xD8` (R317). -/
def execCld (s : State) : Result := .next (s.putFlag .D false)

/-- SED, `0xF8` (R318). -/
def execSed (s : State) : Result := .next (s.putFlag .D true)

/-- CLV, `0xB8` (R319). -/
def execClv (s : State) : Result := .next (s.putFlag .V false)

/-! ## No operation, the reserved opcode, the byte exchange -/

/-- NOP, `0xEA` (R320). -/
def execNop (s : State) : Result := .next s

/-- WDM `#`, `0x42` (R321; mode R123): with the default `SUPPORTED` set it is not executed and the opcode is reported
(`30_encoding.md` R97); with `0x42` supported it does nothing, its operand byte being fetched already. -/
def execWdm (_imm : Byte) (s : State) : Result :=
  if s.params.supported 0x42 then .next s else reportUnsupported 0x42 s

/-- XBA, `0xEB` (R322). -/
def execXba (s : State) : Result :=
  let t := s.setA (joinBytes (lowByte s.A) (highByte s.A))
  .next (t.setNZ .narrow (zeroExtend (lowByte t.A)))

end Sys2Proof.Machine
end

