-- ==== Sys2Proof/Machine/Shift.lean ====
section
/-! DEFINITION. Shifts, rotates, increments and decrements (`spec/42_arithmetic_logic.md` R233 to R242). -/

namespace Sys2Proof.Machine

/-- ASL (R233). -/
def arithmeticShiftLeft (target : Target) (s : State) : Result :=
  .next (modify target s.wA (shiftLeft s.wA) (fun v => shiftFlags s.wA (signBit s.wA v) (shiftLeft s.wA v)) s)

/-- LSR (R234). -/
def logicalShiftRight (target : Target) (s : State) : Result :=
  .next (modify target s.wA shiftRight (fun v => shiftFlags s.wA (v.getLsbD 0) (shiftRight v)) s)

/-- ROL (R235). -/
def rotateLeftThroughC (target : Target) (s : State) : Result :=
  let c := s.flag .C
  .next (modify target s.wA (rotateLeft s.wA c) (fun v => shiftFlags s.wA (signBit s.wA v) (rotateLeft s.wA c v)) s)

/-- ROR (R236). -/
def rotateRightThroughC (target : Target) (s : State) : Result :=
  let c := s.flag .C
  .next (modify target s.wA (rotateRight s.wA c) (fun v => shiftFlags s.wA (v.getLsbD 0) (rotateRight s.wA c v)) s)

/-- INC (R237). -/
def incrementTarget (target : Target) (s : State) : Result :=
  .next (modify target s.wA (increment s.wA) (fun v => flagsNZ s.wA (increment s.wA v)) s)

/-- DEC (R238). -/
def decrementTarget (target : Target) (s : State) : Result :=
  .next (modify target s.wA (decrement s.wA) (fun v => flagsNZ s.wA (decrement s.wA v)) s)

/-- ASL `dp`, `0x06` (R233; mode R124). -/
def execAslDp (d : Byte) (s : State) : Result := arithmeticShiftLeft (.mem (.dp d)) s

/-- ASL `A`, `0x0A` (R233; mode R122). -/
def execAslAcc (s : State) : Result := arithmeticShiftLeft .acc s

/-- ASL `abs`, `0x0E` (R233; mode R132). -/
def execAslAbs (a : Word) (s : State) : Result := arithmeticShiftLeft (.mem (.abs a)) s

/-- ASL `dp,X`, `0x16` (R233; mode R125). -/
def execAslDpX (d : Byte) (s : State) : Result := arithmeticShiftLeft (.mem (.dpX d)) s

/-- ASL `abs,X`, `0x1E` (R233; mode R133). -/
def execAslAbsX (a : Word) (s : State) : Result := arithmeticShiftLeft (.mem (.absX a)) s

/-- LSR `dp`, `0x46` (R234; mode R124). -/
def execLsrDp (d : Byte) (s : State) : Result := logicalShiftRight (.mem (.dp d)) s

/-- LSR `A`, `0x4A` (R234; mode R122). -/
def execLsrAcc (s : State) : Result := logicalShiftRight .acc s

/-- LSR `abs`, `0x4E` (R234; mode R132). -/
def execLsrAbs (a : Word) (s : State) : Result := logicalShiftRight (.mem (.abs a)) s

/-- LSR `dp,X`, `0x56` (R234; mode R125). -/
def execLsrDpX (d : Byte) (s : State) : Result := logicalShiftRight (.mem (.dpX d)) s

/-- LSR `abs,X`, `0x5E` (R234; mode R133). -/
def execLsrAbsX (a : Word) (s : State) : Result := logicalShiftRight (.mem (.absX a)) s

/-- ROL `dp`, `0x26` (R235; mode R124). -/
def execRolDp (d : Byte) (s : State) : Result := rotateLeftThroughC (.mem (.dp d)) s

/-- ROL `A`, `0x2A` (R235; mode R122). -/
def execRolAcc (s : State) : Result := rotateLeftThroughC .acc s

/-- ROL `abs`, `0x2E` (R235; mode R132). -/
def execRolAbs (a : Word) (s : State) : Result := rotateLeftThroughC (.mem (.abs a)) s

/-- ROL `dp,X`, `0x36` (R235; mode R125). -/
def execRolDpX (d : Byte) (s : State) : Result := rotateLeftThroughC (.mem (.dpX d)) s

/-- ROL `abs,X`, `0x3E` (R235; mode R133). -/
def execRolAbsX (a : Word) (s : State) : Result := rotateLeftThroughC (.mem (.absX a)) s

/-- ROR `dp`, `0x66` (R236; mode R124). -/
def execRorDp (d : Byte) (s : State) : Result := rotateRightThroughC (.mem (.dp d)) s

/-- ROR `A`, `0x6A` (R236; mode R122). -/
def execRorAcc (s : State) : Result := rotateRightThroughC .acc s

/-- ROR `abs`, `0x6E` (R236; mode R132). -/
def execRorAbs (a : Word) (s : State) : Result := rotateRightThroughC (.mem (.abs a)) s

/-- ROR `dp,X`, `0x76` (R236; mode R125). -/
def execRorDpX (d : Byte) (s : State) : Result := rotateRightThroughC (.mem (.dpX d)) s

/-- ROR `abs,X`, `0x7E` (R236; mode R133). -/
def execRorAbsX (a : Word) (s : State) : Result := rotateRightThroughC (.mem (.absX a)) s

/-- INC `A`, `0x1A` (R237; mode R122). -/
def execIncAcc (s : State) : Result := incrementTarget .acc s

/-- INC `dp`, `0xE6` (R237; mode R124). -/
def execIncDp (d : Byte) (s : State) : Result := incrementTarget (.mem (.dp d)) s

/-- INC `abs`, `0xEE` (R237; mode R132). -/
def execIncAbs (a : Word) (s : State) : Result := incrementTarget (.mem (.abs a)) s

/-- INC `dp,X`, `0xF6` (R237; mode R125). -/
def execIncDpX (d : Byte) (s : State) : Result := incrementTarget (.mem (.dpX d)) s

/-- INC `abs,X`, `0xFE` (R237; mode R133). -/
def execIncAbsX (a : Word) (s : State) : Result := incrementTarget (.mem (.absX a)) s

/-- DEC `A`, `0x3A` (R238; mode R122). -/
def execDecAcc (s : State) : Result := decrementTarget .acc s

/-- DEC `dp`, `0xC6` (R238; mode R124). -/
def execDecDp (d : Byte) (s : State) : Result := decrementTarget (.mem (.dp d)) s

/-- DEC `abs`, `0xCE` (R238; mode R132). -/
def execDecAbs (a : Word) (s : State) : Result := decrementTarget (.mem (.abs a)) s

/-- DEC `dp,X`, `0xD6` (R238; mode R125). -/
def execDecDpX (d : Byte) (s : State) : Result := decrementTarget (.mem (.dpX d)) s

/-- DEC `abs,X`, `0xDE` (R238; mode R133). -/
def execDecAbsX (a : Word) (s : State) : Result := decrementTarget (.mem (.absX a)) s

/-! ## Index registers, at width `wX` -/

/-- INX, `0xE8` (R239). -/
def execInx (s : State) : Result :=
  let r := increment s.wX s.X
  .next ((s.writeX s.wX r).setNZ s.wX r)

/-- INY, `0xC8` (R240). -/
def execIny (s : State) : Result :=
  let r := increment s.wX s.Y
  .next ((s.writeY s.wX r).setNZ s.wX r)

/-- DEX, `0xCA` (R241). -/
def execDex (s : State) : Result :=
  let r := decrement s.wX s.X
  .next ((s.writeX s.wX r).setNZ s.wX r)

/-- DEY, `0x88` (R242). -/
def execDey (s : State) : Result :=
  let r := decrement s.wX s.Y
  .next ((s.writeY s.wX r).setNZ s.wX r)

end Sys2Proof.Machine
end

