-- ==== Sys2Proof/Machine/Stack.lean ====
section
/-! DEFINITION. Pushes and pulls (`spec/41_load_store_transfer.md` R185 to R200). -/

namespace Sys2Proof.Machine

/-! ## Pushes: no flag changes -/

/-- PHA, `0x48` (R185). -/
def execPha (s : State) : Result := .next (pushData s.wA (s.readA s.wA) s)

/-- PHX, `0xDA` (R186). -/
def execPhx (s : State) : Result := .next (pushData s.wX (s.readX s.wX) s)

/-- PHY, `0x5A` (R187). -/
def execPhy (s : State) : Result := .next (pushData s.wX (s.readY s.wX) s)

/-- PHP, `0x08` (R188). -/
def execPhp (s : State) : Result := .next (push8 s.P s)

/-- PHB, `0x8B` (R189). -/
def execPhb (s : State) : Result := .next (push8 s.DB s)

/-- PHK, `0x4B` (R190). -/
def execPhk (s : State) : Result := .next (push8 s.PBR s)

/-- PHD, `0x0B` (R191). -/
def execPhd (s : State) : Result := .next (push16 s.D s)

/-- PEA `#`, `0xF4` (R198; mode R123). -/
def execPea (imm : Word) (s : State) : Result := .next (push16 imm s)

/-- PEI `dp`, `0xD4` (R199; mode R124). -/
def execPei (d : Byte) (s : State) : Result :=
  let v := read16 (directPage d s) s
  .next (push16 v.1 v.2)

/-- PER `rel16`, `0x62` (R200; mode R145). -/
def execPer (r : Word) (s : State) : Result := .next (push16 (s.PC + r) s)

/-! ## Pulls: N and Z of the value pulled; PLP writes all of `P` -/

/-- PLA, `0x68` (R192). -/
def execPla (s : State) : Result :=
  let v := pullData s.wA s
  .next ((v.2.writeA s.wA v.1).setNZ s.wA v.1)

/-- PLX, `0xFA` (R193). -/
def execPlx (s : State) : Result :=
  let v := pullData s.wX s
  .next ((v.2.writeX s.wX v.1).setNZ s.wX v.1)

/-- PLY, `0x7A` (R194). -/
def execPly (s : State) : Result :=
  let v := pullData s.wX s
  .next ((v.2.writeY s.wX v.1).setNZ s.wX v.1)

/-- PLP, `0x28` (R195). -/
def execPlp (s : State) : Result :=
  let v := pull8 s
  .next (v.2.writeP v.1)

/-- PLB, `0xAB` (R196). -/
def execPlb (s : State) : Result :=
  let v := pull8 s
  .next ((v.2.setDB v.1).setNZ .narrow (zeroExtend v.1))

/-- PLD, `0x2B` (R197). -/
def execPld (s : State) : Result :=
  let v := pull16 s
  .next ((v.2.setD v.1).setNZ .wide v.1)

end Sys2Proof.Machine
end

