-- ==== Sys2Proof/Machine/System.lean ====
section
/-! DEFINITION. System instructions (`spec/45_system.md`). For BRK and COP `PC` is past the opcode byte alone: the
signature byte is skipped by the pushed return offset, opcode address + 2 (R340, R341). -/

namespace Sys2Proof.Machine

/-- BRK `sig`, `0x00` (R340; mode R123). -/
def execBrk (_sig : Byte) (s : State) : Result :=
  .next (interrupt s.params.vecNativeBrk s.params.vecEmulationIrqBrk (s.PC + 1) s)

/-- COP `sig`, `0x02` (R341; mode R123). -/
def execCop (_sig : Byte) (s : State) : Result :=
  .next (interrupt s.params.vecNativeCop s.params.vecEmulationCop (s.PC + 1) s)

/-- RTI, `0x40` (R342). -/
def execRti (s : State) : Result := .next (returnFromInterrupt s)

/-- WAI, `0xCB` (R343). -/
def execWai (s : State) : Result := .next (s.setRun .halted)

/-- STP, `0xDB` (R344). -/
def execStp (s : State) : Result := .next (s.setRun .stopped)

end Sys2Proof.Machine
end

