-- ==== Sys2Proof/Machine/Transfer.lean ====
section
/-! DEFINITION. Register transfers (`spec/41_load_store_transfer.md` R170 to R181). TCD, TDC and TSC move 16 bits at
any width; TXS and TCS set no flag. -/

namespace Sys2Proof.Machine

/-- A transfer into `A` of width `wA`: `v[wA-1:0]`, N and Z (R172, R173). -/
def transferToA (v : Word) (s : State) : Result :=
  .next ((s.writeA s.wA (takeBits s.wA v)).setNZ s.wA (takeBits s.wA v))

/-- A transfer into `X` of width `wX` (R170, R174, R177). -/
def transferToX (v : Word) (s : State) : Result :=
  .next ((s.writeX s.wX (takeBits s.wX v)).setNZ s.wX (takeBits s.wX v))

/-- A transfer into `Y` of width `wX` (R171, R176). -/
def transferToY (v : Word) (s : State) : Result :=
  .next ((s.writeY s.wX (takeBits s.wX v)).setNZ s.wX (takeBits s.wX v))

/-- TAX, `0xAA` (R170). -/
def execTax (s : State) : Result := transferToX s.A s

/-- TAY, `0xA8` (R171). -/
def execTay (s : State) : Result := transferToY s.A s

/-- TXA, `0x8A` (R172). -/
def execTxa (s : State) : Result := transferToA s.X s

/-- TYA, `0x98` (R173). -/
def execTya (s : State) : Result := transferToA s.Y s

/-- TSX, `0xBA` (R174). -/
def execTsx (s : State) : Result := transferToX s.S s

/-- TXS, `0x9A` (R175). -/
def execTxs (s : State) : Result := .next (s.writeS s.X)

/-- TXY, `0x9B` (R176). -/
def execTxy (s : State) : Result := transferToY s.X s

/-- TYX, `0xBB` (R177). -/
def execTyx (s : State) : Result := transferToX s.Y s

/-- TCD, `0x5B` (R178). -/
def execTcd (s : State) : Result := .next ((s.setD s.A).setNZ .wide s.A)

/-- TDC, `0x7B` (R179). -/
def execTdc (s : State) : Result := .next ((s.setA s.D).setNZ .wide s.D)

/-- TCS, `0x1B` (R180). -/
def execTcs (s : State) : Result := .next (s.writeS s.A)

/-- TSC, `0x3B` (R181). -/
def execTsc (s : State) : Result := .next ((s.setA s.S).setNZ .wide s.S)

end Sys2Proof.Machine
end

