-- ==== Sys2Proof/Machine/Dispatch.lean ====
section
/-! DEFINITION. The dispatch: one arm per constructor of `Instr`, each a call of that instruction's own meaning. -/

namespace Sys2Proof.Machine

def exec (i : Instr) (s : State) : Host.Outcome State Fault Refusal :=
  match i with
  | .brk sig => Sys2Proof.Machine.execBrk sig s
  | .oraIndDpX d => Sys2Proof.Machine.execOraIndDpX d s
  | .cop sig => Sys2Proof.Machine.execCop sig s
  | .oraSr d => Sys2Proof.Machine.execOraSr d s
  | .tsbDp d => Sys2Proof.Machine.execTsbDp d s
  | .oraDp d => Sys2Proof.Machine.execOraDp d s
  | .aslDp d => Sys2Proof.Machine.execAslDp d s
  | .oraLongIndDp d => Sys2Proof.Machine.execOraLongIndDp d s
  | .oraImm imm => Sys2Proof.Machine.execOraImm imm s
  | .tsbAbs a => Sys2Proof.Machine.execTsbAbs a s
  | .oraAbs a => Sys2Proof.Machine.execOraAbs a s
  | .aslAbs a => Sys2Proof.Machine.execAslAbs a s
  | .oraLong a => Sys2Proof.Machine.execOraLong a s
  | .bpl r => Sys2Proof.Machine.execBpl r s
  | .oraIndDpY d => Sys2Proof.Machine.execOraIndDpY d s
  | .oraIndDp d => Sys2Proof.Machine.execOraIndDp d s
  | .oraIndSrY d => Sys2Proof.Machine.execOraIndSrY d s
  | .trbDp d => Sys2Proof.Machine.execTrbDp d s
  | .oraDpX d => Sys2Proof.Machine.execOraDpX d s
  | .aslDpX d => Sys2Proof.Machine.execAslDpX d s
  | .oraLongIndDpY d => Sys2Proof.Machine.execOraLongIndDpY d s
  | .oraAbsY a => Sys2Proof.Machine.execOraAbsY a s
  | .trbAbs a => Sys2Proof.Machine.execTrbAbs a s
  | .oraAbsX a => Sys2Proof.Machine.execOraAbsX a s
  | .aslAbsX a => Sys2Proof.Machine.execAslAbsX a s
  | .oraLongX a => Sys2Proof.Machine.execOraLongX a s
  | .jsrAbs a => Sys2Proof.Machine.execJsrAbs a s
  | .andIndDpX d => Sys2Proof.Machine.execAndIndDpX d s
  | .jsl a => Sys2Proof.Machine.execJsl a s
  | .andSr d => Sys2Proof.Machine.execAndSr d s
  | .bitDp d => Sys2Proof.Machine.execBitDp d s
  | .andDp d => Sys2Proof.Machine.execAndDp d s
  | .rolDp d => Sys2Proof.Machine.execRolDp d s
  | .andLongIndDp d => Sys2Proof.Machine.execAndLongIndDp d s
  | .andImm imm => Sys2Proof.Machine.execAndImm imm s
  | .bitAbs a => Sys2Proof.Machine.execBitAbs a s
  | .andAbs a => Sys2Proof.Machine.execAndAbs a s
  | .rolAbs a => Sys2Proof.Machine.execRolAbs a s
  | .andLong a => Sys2Proof.Machine.execAndLong a s
  | .bmi r => Sys2Proof.Machine.execBmi r s
  | .andIndDpY d => Sys2Proof.Machine.execAndIndDpY d s
  | .andIndDp d => Sys2Proof.Machine.execAndIndDp d s
  | .andIndSrY d => Sys2Proof.Machine.execAndIndSrY d s
  | .bitDpX d => Sys2Proof.Machine.execBitDpX d s
  | .andDpX d => Sys2Proof.Machine.execAndDpX d s
  | .rolDpX d => Sys2Proof.Machine.execRolDpX d s
  | .andLongIndDpY d => Sys2Proof.Machine.execAndLongIndDpY d s
  | .andAbsY a => Sys2Proof.Machine.execAndAbsY a s
  | .bitAbsX a => Sys2Proof.Machine.execBitAbsX a s
  | .andAbsX a => Sys2Proof.Machine.execAndAbsX a s
  | .rolAbsX a => Sys2Proof.Machine.execRolAbsX a s
  | .andLongX a => Sys2Proof.Machine.execAndLongX a s
  | .eorIndDpX d => Sys2Proof.Machine.execEorIndDpX d s
  | .wdm imm => Sys2Proof.Machine.execWdm imm s
  | .eorSr d => Sys2Proof.Machine.execEorSr d s
  | .mvp dst src => Sys2Proof.Machine.execMvp dst src s
  | .eorDp d => Sys2Proof.Machine.execEorDp d s
  | .lsrDp d => Sys2Proof.Machine.execLsrDp d s
  | .eorLongIndDp d => Sys2Proof.Machine.execEorLongIndDp d s
  | .eorImm imm => Sys2Proof.Machine.execEorImm imm s
  | .jmpAbs a => Sys2Proof.Machine.execJmpAbs a s
  | .eorAbs a => Sys2Proof.Machine.execEorAbs a s
  | .lsrAbs a => Sys2Proof.Machine.execLsrAbs a s
  | .eorLong a => Sys2Proof.Machine.execEorLong a s
  | .bvc r => Sys2Proof.Machine.execBvc r s
  | .eorIndDpY d => Sys2Proof.Machine.execEorIndDpY d s
  | .eorIndDp d => Sys2Proof.Machine.execEorIndDp d s
  | .eorIndSrY d => Sys2Proof.Machine.execEorIndSrY d s
  | .mvn dst src => Sys2Proof.Machine.execMvn dst src s
  | .eorDpX d => Sys2Proof.Machine.execEorDpX d s
  | .lsrDpX d => Sys2Proof.Machine.execLsrDpX d s
  | .eorLongIndDpY d => Sys2Proof.Machine.execEorLongIndDpY d s
  | .eorAbsY a => Sys2Proof.Machine.execEorAbsY a s
  | .jmlLong a => Sys2Proof.Machine.execJmlLong a s
  | .eorAbsX a => Sys2Proof.Machine.execEorAbsX a s
  | .lsrAbsX a => Sys2Proof.Machine.execLsrAbsX a s
  | .eorLongX a => Sys2Proof.Machine.execEorLongX a s
  | .adcIndDpX d => Sys2Proof.Machine.execAdcIndDpX d s
  | .per r => Sys2Proof.Machine.execPer r s
  | .adcSr d => Sys2Proof.Machine.execAdcSr d s
  | .stzDp d => Sys2Proof.Machine.execStzDp d s
  | .adcDp d => Sys2Proof.Machine.execAdcDp d s
  | .rorDp d => Sys2Proof.Machine.execRorDp d s
  | .adcLongIndDp d => Sys2Proof.Machine.execAdcLongIndDp d s
  | .adcImm imm => Sys2Proof.Machine.execAdcImm imm s
  | .jmpInd a => Sys2Proof.Machine.execJmpInd a s
  | .adcAbs a => Sys2Proof.Machine.execAdcAbs a s
  | .rorAbs a => Sys2Proof.Machine.execRorAbs a s
  | .adcLong a => Sys2Proof.Machine.execAdcLong a s
  | .bvs r => Sys2Proof.Machine.execBvs r s
  | .adcIndDpY d => Sys2Proof.Machine.execAdcIndDpY d s
  | .adcIndDp d => Sys2Proof.Machine.execAdcIndDp d s
  | .adcIndSrY d => Sys2Proof.Machine.execAdcIndSrY d s
  | .stzDpX d => Sys2Proof.Machine.execStzDpX d s
  | .adcDpX d => Sys2Proof.Machine.execAdcDpX d s
  | .rorDpX d => Sys2Proof.Machine.execRorDpX d s
  | .adcLongIndDpY d => Sys2Proof.Machine.execAdcLongIndDpY d s
  | .adcAbsY a => Sys2Proof.Machine.execAdcAbsY a s
  | .jmpIndX a => Sys2Proof.Machine.execJmpIndX a s
  | .adcAbsX a => Sys2Proof.Machine.execAdcAbsX a s
  | .rorAbsX a => Sys2Proof.Machine.execRorAbsX a s
  | .adcLongX a => Sys2Proof.Machine.execAdcLongX a s
  | .bra r => Sys2Proof.Machine.execBra r s
  | .staIndDpX d => Sys2Proof.Machine.execStaIndDpX d s
  | .brl r => Sys2Proof.Machine.execBrl r s
  | .staSr d => Sys2Proof.Machine.execStaSr d s
  | .styDp d => Sys2Proof.Machine.execStyDp d s
  | .staDp d => Sys2Proof.Machine.execStaDp d s
  | .stxDp d => Sys2Proof.Machine.execStxDp d s
  | .staLongIndDp d => Sys2Proof.Machine.execStaLongIndDp d s
  | .bitImm imm => Sys2Proof.Machine.execBitImm imm s
  | .styAbs a => Sys2Proof.Machine.execStyAbs a s
  | .staAbs a => Sys2Proof.Machine.execStaAbs a s
  | .stxAbs a => Sys2Proof.Machine.execStxAbs a s
  | .staLong a => Sys2Proof.Machine.execStaLong a s
  | .bcc r => Sys2Proof.Machine.execBcc r s
  | .staIndDpY d => Sys2Proof.Machine.execStaIndDpY d s
  | .staIndDp d => Sys2Proof.Machine.execStaIndDp d s
  | .staIndSrY d => Sys2Proof.Machine.execStaIndSrY d s
  | .styDpX d => Sys2Proof.Machine.execStyDpX d s
  | .staDpX d => Sys2Proof.Machine.execStaDpX d s
  | .stxDpY d => Sys2Proof.Machine.execStxDpY d s
  | .staLongIndDpY d => Sys2Proof.Machine.execStaLongIndDpY d s
  | .staAbsY a => Sys2Proof.Machine.execStaAbsY a s
  | .stzAbs a => Sys2Proof.Machine.execStzAbs a s
  | .staAbsX a => Sys2Proof.Machine.execStaAbsX a s
  | .stzAbsX a => Sys2Proof.Machine.execStzAbsX a s
  | .staLongX a => Sys2Proof.Machine.execStaLongX a s
  | .ldyImm imm => Sys2Proof.Machine.execLdyImm imm s
  | .ldaIndDpX d => Sys2Proof.Machine.execLdaIndDpX d s
  | .ldxImm imm => Sys2Proof.Machine.execLdxImm imm s
  | .ldaSr d => Sys2Proof.Machine.execLdaSr d s
  | .ldyDp d => Sys2Proof.Machine.execLdyDp d s
  | .ldaDp d => Sys2Proof.Machine.execLdaDp d s
  | .ldxDp d => Sys2Proof.Machine.execLdxDp d s
  | .ldaLongIndDp d => Sys2Proof.Machine.execLdaLongIndDp d s
  | .ldaImm imm => Sys2Proof.Machine.execLdaImm imm s
  | .ldyAbs a => Sys2Proof.Machine.execLdyAbs a s
  | .ldaAbs a => Sys2Proof.Machine.execLdaAbs a s
  | .ldxAbs a => Sys2Proof.Machine.execLdxAbs a s
  | .ldaLong a => Sys2Proof.Machine.execLdaLong a s
  | .bcs r => Sys2Proof.Machine.execBcs r s
  | .ldaIndDpY d => Sys2Proof.Machine.execLdaIndDpY d s
  | .ldaIndDp d => Sys2Proof.Machine.execLdaIndDp d s
  | .ldaIndSrY d => Sys2Proof.Machine.execLdaIndSrY d s
  | .ldyDpX d => Sys2Proof.Machine.execLdyDpX d s
  | .ldaDpX d => Sys2Proof.Machine.execLdaDpX d s
  | .ldxDpY d => Sys2Proof.Machine.execLdxDpY d s
  | .ldaLongIndDpY d => Sys2Proof.Machine.execLdaLongIndDpY d s
  | .ldaAbsY a => Sys2Proof.Machine.execLdaAbsY a s
  | .ldyAbsX a => Sys2Proof.Machine.execLdyAbsX a s
  | .ldaAbsX a => Sys2Proof.Machine.execLdaAbsX a s
  | .ldxAbsY a => Sys2Proof.Machine.execLdxAbsY a s
  | .ldaLongX a => Sys2Proof.Machine.execLdaLongX a s
  | .cpyImm imm => Sys2Proof.Machine.execCpyImm imm s
  | .cmpIndDpX d => Sys2Proof.Machine.execCmpIndDpX d s
  | .rep imm => Sys2Proof.Machine.execRep imm s
  | .cmpSr d => Sys2Proof.Machine.execCmpSr d s
  | .cpyDp d => Sys2Proof.Machine.execCpyDp d s
  | .cmpDp d => Sys2Proof.Machine.execCmpDp d s
  | .decDp d => Sys2Proof.Machine.execDecDp d s
  | .cmpLongIndDp d => Sys2Proof.Machine.execCmpLongIndDp d s
  | .cmpImm imm => Sys2Proof.Machine.execCmpImm imm s
  | .cpyAbs a => Sys2Proof.Machine.execCpyAbs a s
  | .cmpAbs a => Sys2Proof.Machine.execCmpAbs a s
  | .decAbs a => Sys2Proof.Machine.execDecAbs a s
  | .cmpLong a => Sys2Proof.Machine.execCmpLong a s
  | .bne r => Sys2Proof.Machine.execBne r s
  | .cmpIndDpY d => Sys2Proof.Machine.execCmpIndDpY d s
  | .cmpIndDp d => Sys2Proof.Machine.execCmpIndDp d s
  | .cmpIndSrY d => Sys2Proof.Machine.execCmpIndSrY d s
  | .pei d => Sys2Proof.Machine.execPei d s
  | .cmpDpX d => Sys2Proof.Machine.execCmpDpX d s
  | .decDpX d => Sys2Proof.Machine.execDecDpX d s
  | .cmpLongIndDpY d => Sys2Proof.Machine.execCmpLongIndDpY d s
  | .cmpAbsY a => Sys2Proof.Machine.execCmpAbsY a s
  | .jmlLongInd a => Sys2Proof.Machine.execJmlLongInd a s
  | .cmpAbsX a => Sys2Proof.Machine.execCmpAbsX a s
  | .decAbsX a => Sys2Proof.Machine.execDecAbsX a s
  | .cmpLongX a => Sys2Proof.Machine.execCmpLongX a s
  | .cpxImm imm => Sys2Proof.Machine.execCpxImm imm s
  | .sbcIndDpX d => Sys2Proof.Machine.execSbcIndDpX d s
  | .sep imm => Sys2Proof.Machine.execSep imm s
  | .sbcSr d => Sys2Proof.Machine.execSbcSr d s
  | .cpxDp d => Sys2Proof.Machine.execCpxDp d s
  | .sbcDp d => Sys2Proof.Machine.execSbcDp d s
  | .incDp d => Sys2Proof.Machine.execIncDp d s
  | .sbcLongIndDp d => Sys2Proof.Machine.execSbcLongIndDp d s
  | .sbcImm imm => Sys2Proof.Machine.execSbcImm imm s
  | .cpxAbs a => Sys2Proof.Machine.execCpxAbs a s
  | .sbcAbs a => Sys2Proof.Machine.execSbcAbs a s
  | .incAbs a => Sys2Proof.Machine.execIncAbs a s
  | .sbcLong a => Sys2Proof.Machine.execSbcLong a s
  | .beq r => Sys2Proof.Machine.execBeq r s
  | .sbcIndDpY d => Sys2Proof.Machine.execSbcIndDpY d s
  | .sbcIndDp d => Sys2Proof.Machine.execSbcIndDp d s
  | .sbcIndSrY d => Sys2Proof.Machine.execSbcIndSrY d s
  | .pea imm => Sys2Proof.Machine.execPea imm s
  | .sbcDpX d => Sys2Proof.Machine.execSbcDpX d s
  | .incDpX d => Sys2Proof.Machine.execIncDpX d s
  | .sbcLongIndDpY d => Sys2Proof.Machine.execSbcLongIndDpY d s
  | .sbcAbsY a => Sys2Proof.Machine.execSbcAbsY a s
  | .jsrIndX a => Sys2Proof.Machine.execJsrIndX a s
  | .sbcAbsX a => Sys2Proof.Machine.execSbcAbsX a s
  | .incAbsX a => Sys2Proof.Machine.execIncAbsX a s
  | .sbcLongX a => Sys2Proof.Machine.execSbcLongX a s
  | .php => Sys2Proof.Machine.execPhp s
  | .aslAcc => Sys2Proof.Machine.execAslAcc s
  | .phd => Sys2Proof.Machine.execPhd s
  | .clc => Sys2Proof.Machine.execClc s
  | .incAcc => Sys2Proof.Machine.execIncAcc s
  | .tcs => Sys2Proof.Machine.execTcs s
  | .plp => Sys2Proof.Machine.execPlp s
  | .rolAcc => Sys2Proof.Machine.execRolAcc s
  | .pld => Sys2Proof.Machine.execPld s
  | .sec => Sys2Proof.Machine.execSec s
  | .decAcc => Sys2Proof.Machine.execDecAcc s
  | .tsc => Sys2Proof.Machine.execTsc s
  | .rti => Sys2Proof.Machine.execRti s
  | .pha => Sys2Proof.Machine.execPha s
  | .lsrAcc => Sys2Proof.Machine.execLsrAcc s
  | .phk => Sys2Proof.Machine.execPhk s
  | .cli => Sys2Proof.Machine.execCli s
  | .phy => Sys2Proof.Machine.execPhy s
  | .tcd => Sys2Proof.Machine.execTcd s
  | .rts => Sys2Proof.Machine.execRts s
  | .pla => Sys2Proof.Machine.execPla s
  | .rorAcc => Sys2Proof.Machine.execRorAcc s
  | .rtl => Sys2Proof.Machine.execRtl s
  | .sei => Sys2Proof.Machine.execSei s
  | .ply => Sys2Proof.Machine.execPly s
  | .tdc => Sys2Proof.Machine.execTdc s
  | .dey => Sys2Proof.Machine.execDey s
  | .txa => Sys2Proof.Machine.execTxa s
  | .phb => Sys2Proof.Machine.execPhb s
  | .tya => Sys2Proof.Machine.execTya s
  | .txs => Sys2Proof.Machine.execTxs s
  | .txy => Sys2Proof.Machine.execTxy s
  | .tay => Sys2Proof.Machine.execTay s
  | .tax => Sys2Proof.Machine.execTax s
  | .plb => Sys2Proof.Machine.execPlb s
  | .clv => Sys2Proof.Machine.execClv s
  | .tsx => Sys2Proof.Machine.execTsx s
  | .tyx => Sys2Proof.Machine.execTyx s
  | .iny => Sys2Proof.Machine.execIny s
  | .dex => Sys2Proof.Machine.execDex s
  | .wai => Sys2Proof.Machine.execWai s
  | .cld => Sys2Proof.Machine.execCld s
  | .phx => Sys2Proof.Machine.execPhx s
  | .stp => Sys2Proof.Machine.execStp s
  | .inx => Sys2Proof.Machine.execInx s
  | .nop => Sys2Proof.Machine.execNop s
  | .xba => Sys2Proof.Machine.execXba s
  | .sed => Sys2Proof.Machine.execSed s
  | .plx => Sys2Proof.Machine.execPlx s
  | .xce => Sys2Proof.Machine.execXce s

end Sys2Proof.Machine
end

