-- ==== Sys2Proof/Machine/Commands.lean ====
section
/-! DEFINITION. The four commands of the block (`spec/00_scope.md` R6): `Reset` (`spec/70_reset_and_hazards.md`
R400), `Step` (`spec/30_encoding.md` R90), `Nmi` and `Irq` (`spec/60_exceptions.md` R366, R367), and the inputs
that issue them. Each command begins with an empty list of bus operations, so that after it `State.bus` holds
its own. -/

namespace Sys2Proof.Machine

/-- `Reset` (R400): every register at its reset value, the vector read and nothing else done on the bus. Memory
is not cleared. -/
def resetCommand (s : State) : State :=
  let t : State :=
    { s with
      A := s.params.resetA, X := s.params.resetX &&& 0x00FF, Y := s.params.resetY &&& 0x00FF, S := 0x01FF,
      D := s.params.resetD, DB := s.params.resetDB, PBR := 0x00, P := s.params.resetP, E := true, run := .running,
      live := true, out := .nothing, bus := [] }
  let v := readVector s.params.vecReset t
  v.2.setPC v.1

/-- `Nmi` (R366): no effect at all in `Stopped` (D20), else an entry through the NMI vector, which no flag masks. -/
def nmiCommand (s : State) : State :=
  let t := (s.setBus []).setOut .nothing
  if s.run = .stopped then t else interrupt s.params.vecNativeNmi s.params.vecEmulationNmi t.PC t

/-- Whether an `Irq` is taken (R367). -/
def irqTaken (s : State) : Bool :=
  decide (s.run ≠ .stopped) && (decide (s.run ≠ .halted) || s.params.irqWakesWait) && !s.flag .I

/-- `Irq` (R367): an entry through the IRQ vector if it is taken, and the output `taken`. -/
def irqCommand (s : State) : State :=
  let t := (s.setBus []).setOut (.irq (irqTaken s))
  if irqTaken s then interrupt s.params.vecNativeIrq s.params.vecEmulationIrqBrk t.PC t else t

/-- The body of `Step` in `Running` (R90), with opcode `op` at `PBR:PC`: an opcode outside `SUPPORTED` is consumed
alone and reported (R97); else all the instruction's bytes are fetched and it is executed. -/
def stepRunning (op : Byte) (s : State) : Result :=
  let m := s.flag .M
  let x := s.flag .X
  if s.params.supported op then
    match decode m x s.codeBytes with
    | .ok i => exec i ((fetchBytes (fetchedLength m x op) s).costs (s.params.cost op))
    | .error _ => .refused .undecodable
  else reportUnsupported op (fetchBytes 1 s)

/-- `Step` (R90): unless the core runs, nothing is fetched and no state of the core changes (R38). -/
def stepCommand (s : State) : Result :=
  let t := s.setBus []
  if s.run = .running then stepRunning (t.byteAt (.pair t.PBR t.PC)) t else .next (t.costs s.params.cycMin)

/-- One input. Before the first `Reset` only `Reset` and the environment's writes have a meaning (`10_state.md`
R41, log 8). -/
def runInput (i : Input) (s : State) : Result :=
  match i with
  | .reset => .next (resetCommand s)
  | .busWrite a v => .next (s.setMem (s.mem.write a.toNat v))
  | .step => if s.live then stepCommand s else .refused .beforeFirstReset
  | .nmi => if s.live then .next (nmiCommand s) else .refused .beforeFirstReset
  | .irq => if s.live then .next (irqCommand s) else .refused .beforeFirstReset

end Sys2Proof.Machine
end

