-- ==== Sys2Proof/Machine/Step.lean ====
section
/-! DEFINITION. One step of the machine: the next pending input if there is one, else a `Step` command (log 7);
and how one instruction is placed where a step fetches. -/

namespace Sys2Proof.Machine

/-- One step: the first pending input, and with none pending a `Step` command (`spec/00_scope.md` R5, R6). -/
def step (s : State) : Host.Outcome State Fault Refusal :=
  match s.inputs with
  | [] => runInput .step s
  | i :: rest => runInput i (s.setInputs rest)

/-- Write bytes at consecutive offsets of bank `bank` from `off` on, wrapping in the bank. -/
def Memory.place (bank : Byte) (off : Word) (bs : List Byte) (m : Memory) : Memory :=
  match bs with
  | [] => m
  | b :: rest => Memory.place bank (off + 1) rest (m.write (Ea.pair bank off).cell b)

/-- `s` with the instruction whose table bits are `w` stored at `PBR:PC`, running and with no input pending, so
that the very next step fetches and runs it (log 12). -/
def State.withFetchWord (s : State) (nbits w : Nat) : State :=
  (((s.setMem (Memory.place s.PBR s.PC (tableBytes nbits w) s.mem)).setRun .running).setLive true).setInputs []

end Sys2Proof.Machine
end

