-- ==== Sys2Proof/Machine/Scheduler.lean ====
section
/-! DEFINITION. What the scheduler owes (`spec/60_exceptions.md` R365, R370): which inputs one iteration of the
reference loop gives the core, as a function of the lines it samples between two commands. The lines are no
state of the core (`spec/10_state.md` R39). -/

namespace Sys2Proof.Machine

/-- What the scheduler looks at between two commands (R365). -/
structure Lines where
  /-- a reset is requested -/
  resetRequested : Bool
  /-- the NMI line (R364) -/
  nmiPending : Bool
  /-- the IRQ line (R364) -/
  irqPending : Bool
  /-- the transfer engine claims the bus, so the core is skipped -/
  transferClaims : Bool
  deriving DecidableEq, Repr

/-- The interrupt part of an iteration: `Reset` before `Nmi` before `Irq` (R365, R370). -/
def serviceInputs (l : Lines) : List Input :=
  if l.resetRequested then [.reset]
  else if l.nmiPending then [.nmi]
  else if l.irqPending then [.irq]
  else []

/-- The commands one iteration of the loop issues (R365). -/
def driverInputs (l : Lines) : List Input := serviceInputs l ++ (if l.transferClaims then [] else [.step])

end Sys2Proof.Machine
end

