-- ==== Sys2Proof/Safety/Forms.lean ====
section
/-! DEFINITION. The forms of each operation that has several: which opcode and instruction an operation and an
operand make (`spec/30_encoding.md` R94, and the opcode lists of the instruction rules), none where the opcode map
has no such cell. Claims about "every form of LDA" quantify over these. -/

namespace Sys2Proof.Claims

open Sys2Proof.Machine

/-- The forms of LDA (R161). -/
def ldaForm : Source → Option (Byte × Instr)
  | .imm v => some (0xA9, .ldaImm v)
  | .mem (.dp d) => some (0xA5, .ldaDp d)
  | .mem (.dpX d) => some (0xB5, .ldaDpX d)
  | .mem (.indDp d) => some (0xB2, .ldaIndDp d)
  | .mem (.indDpX d) => some (0xA1, .ldaIndDpX d)
  | .mem (.indDpY d) => some (0xB1, .ldaIndDpY d)
  | .mem (.longIndDp d) => some (0xA7, .ldaLongIndDp d)
  | .mem (.longIndDpY d) => some (0xB7, .ldaLongIndDpY d)
  | .mem (.abs a) => some (0xAD, .ldaAbs a)
  | .mem (.absX a) => some (0xBD, .ldaAbsX a)
  | .mem (.absY a) => some (0xB9, .ldaAbsY a)
  | .mem (.long a) => some (0xAF, .ldaLong a)
  | .mem (.longX a) => some (0xBF, .ldaLongX a)
  | .mem (.sr d) => some (0xA3, .ldaSr d)
  | .mem (.indSrY d) => some (0xB3, .ldaIndSrY d)
  | .mem (.dpY _) => none

/-- The forms of LDX (R162). -/
def ldxForm : Source → Option (Byte × Instr)
  | .imm v => some (0xA2, .ldxImm v)
  | .mem (.dp d) => some (0xA6, .ldxDp d)
  | .mem (.dpY d) => some (0xB6, .ldxDpY d)
  | .mem (.abs a) => some (0xAE, .ldxAbs a)
  | .mem (.absY a) => some (0xBE, .ldxAbsY a)
  | .mem (.dpX _) | .mem (.indDp _) | .mem (.indDpX _) | .mem (.indDpY _) | .mem (.longIndDp _)
  | .mem (.longIndDpY _) | .mem (.absX _) | .mem (.long _) | .mem (.longX _) | .mem (.sr _) | .mem (.indSrY _) => none

/-- The forms of LDY (R163). -/
def ldyForm : Source → Option (Byte × Instr)
  | .imm v => some (0xA0, .ldyImm v)
  | .mem (.dp d) => some (0xA4, .ldyDp d)
  | .mem (.dpX d) => some (0xB4, .ldyDpX d)
  | .mem (.abs a) => some (0xAC, .ldyAbs a)
  | .mem (.absX a) => some (0xBC, .ldyAbsX a)
  | .mem (.dpY _) | .mem (.indDp _) | .mem (.indDpX _) | .mem (.indDpY _) | .mem (.longIndDp _)
  | .mem (.longIndDpY _) | .mem (.absY _) | .mem (.long _) | .mem (.longX _) | .mem (.sr _) | .mem (.indSrY _) => none

/-- The forms of ADC (R221). -/
def adcForm : Source → Option (Byte × Instr)
  | .imm v => some (0x69, .adcImm v)
  | .mem (.dp d) => some (0x65, .adcDp d)
  | .mem (.dpX d) => some (0x75, .adcDpX d)
  | .mem (.indDp d) => some (0x72, .adcIndDp d)
  | .mem (.indDpX d) => some (0x61, .adcIndDpX d)
  | .mem (.indDpY d) => some (0x71, .adcIndDpY d)
  | .mem (.longIndDp d) => some (0x67, .adcLongIndDp d)
  | .mem (.longIndDpY d) => some (0x77, .adcLongIndDpY d)
  | .mem (.abs a) => some (0x6D, .adcAbs a)
  | .mem (.absX a) => some (0x7D, .adcAbsX a)
  | .mem (.absY a) => some (0x79, .adcAbsY a)
  | .mem (.long a) => some (0x6F, .adcLong a)
  | .mem (.longX a) => some (0x7F, .adcLongX a)
  | .mem (.sr d) => some (0x63, .adcSr d)
  | .mem (.indSrY d) => some (0x73, .adcIndSrY d)
  | .mem (.dpY _) => none

/-- The forms of SBC (R223). -/
def sbcForm : Source → Option (Byte × Instr)
  | .imm v => some (0xE9, .sbcImm v)
  | .mem (.dp d) => some (0xE5, .sbcDp d)
  | .mem (.dpX d) => some (0xF5, .sbcDpX d)
  | .mem (.indDp d) => some (0xF2, .sbcIndDp d)
  | .mem (.indDpX d) => some (0xE1, .sbcIndDpX d)
  | .mem (.indDpY d) => some (0xF1, .sbcIndDpY d)
  | .mem (.longIndDp d) => some (0xE7, .sbcLongIndDp d)
  | .mem (.longIndDpY d) => some (0xF7, .sbcLongIndDpY d)
  | .mem (.abs a) => some (0xED, .sbcAbs a)
  | .mem (.absX a) => some (0xFD, .sbcAbsX a)
  | .mem (.absY a) => some (0xF9, .sbcAbsY a)
  | .mem (.long a) => some (0xEF, .sbcLong a)
  | .mem (.longX a) => some (0xFF, .sbcLongX a)
  | .mem (.sr d) => some (0xE3, .sbcSr d)
  | .mem (.indSrY d) => some (0xF3, .sbcIndSrY d)
  | .mem (.dpY _) => none

/-- The forms of CMP (R224). -/
def cmpForm : Source → Option (Byte × Instr)
  | .imm v => some (0xC9, .cmpImm v)
  | .mem (.dp d) => some (0xC5, .cmpDp d)
  | .mem (.dpX d) => some (0xD5, .cmpDpX d)
  | .mem (.indDp d) => some (0xD2, .cmpIndDp d)
  | .mem (.indDpX d) => some (0xC1, .cmpIndDpX d)
  | .mem (.indDpY d) => some (0xD1, .cmpIndDpY d)
  | .mem (.longIndDp d) => some (0xC7, .cmpLongIndDp d)
  | .mem (.longIndDpY d) => some (0xD7, .cmpLongIndDpY d)
  | .mem (.abs a) => some (0xCD, .cmpAbs a)
  | .mem (.absX a) => some (0xDD, .cmpAbsX a)
  | .mem (.absY a) => some (0xD9, .cmpAbsY a)
  | .mem (.long a) => some (0xCF, .cmpLong a)
  | .mem (.longX a) => some (0xDF, .cmpLongX a)
  | .mem (.sr d) => some (0xC3, .cmpSr d)
  | .mem (.indSrY d) => some (0xD3, .cmpIndSrY d)
  | .mem (.dpY _) => none

/-- The forms of CPX (R225). -/
def cpxForm : Source → Option (Byte × Instr)
  | .imm v => some (0xE0, .cpxImm v)
  | .mem (.dp d) => some (0xE4, .cpxDp d)
  | .mem (.abs a) => some (0xEC, .cpxAbs a)
  | .mem (.dpX _) | .mem (.dpY _) | .mem (.indDp _) | .mem (.indDpX _) | .mem (.indDpY _) | .mem (.longIndDp _)
  | .mem (.longIndDpY _) | .mem (.absX _) | .mem (.absY _) | .mem (.long _) | .mem (.longX _) | .mem (.sr _)
  | .mem (.indSrY _) => none

/-- The forms of CPY (R226). -/
def cpyForm : Source → Option (Byte × Instr)
  | .imm v => some (0xC0, .cpyImm v)
  | .mem (.dp d) => some (0xC4, .cpyDp d)
  | .mem (.abs a) => some (0xCC, .cpyAbs a)
  | .mem (.dpX _) | .mem (.dpY _) | .mem (.indDp _) | .mem (.indDpX _) | .mem (.indDpY _) | .mem (.longIndDp _)
  | .mem (.longIndDpY _) | .mem (.absX _) | .mem (.absY _) | .mem (.long _) | .mem (.longX _) | .mem (.sr _)
  | .mem (.indSrY _) => none

/-- The forms of AND (R227). -/
def andForm : Source → Option (Byte × Instr)
  | .imm v => some (0x29, .andImm v)
  | .mem (.dp d) => some (0x25, .andDp d)
  | .mem (.dpX d) => some (0x35, .andDpX d)
  | .mem (.indDp d) => some (0x32, .andIndDp d)
  | .mem (.indDpX d) => some (0x21, .andIndDpX d)
  | .mem (.indDpY d) => some (0x31, .andIndDpY d)
  | .mem (.longIndDp d) => some (0x27, .andLongIndDp d)
  | .mem (.longIndDpY d) => some (0x37, .andLongIndDpY d)
  | .mem (.abs a) => some (0x2D, .andAbs a)
  | .mem (.absX a) => some (0x3D, .andAbsX a)
  | .mem (.absY a) => some (0x39, .andAbsY a)
  | .mem (.long a) => some (0x2F, .andLong a)
  | .mem (.longX a) => some (0x3F, .andLongX a)
  | .mem (.sr d) => some (0x23, .andSr d)
  | .mem (.indSrY d) => some (0x33, .andIndSrY d)
  | .mem (.dpY _) => none

/-- The forms of ORA (R228). -/
def oraForm : Source → Option (Byte × Instr)
  | .imm v => some (0x09, .oraImm v)
  | .mem (.dp d) => some (0x05, .oraDp d)
  | .mem (.dpX d) => some (0x15, .oraDpX d)
  | .mem (.indDp d) => some (0x12, .oraIndDp d)
  | .mem (.indDpX d) => some (0x01, .oraIndDpX d)
  | .mem (.indDpY d) => some (0x11, .oraIndDpY d)
  | .mem (.longIndDp d) => some (0x07, .oraLongIndDp d)
  | .mem (.longIndDpY d) => some (0x17, .oraLongIndDpY d)
  | .mem (.abs a) => some (0x0D, .oraAbs a)
  | .mem (.absX a) => some (0x1D, .oraAbsX a)
  | .mem (.absY a) => some (0x19, .oraAbsY a)
  | .mem (.long a) => some (0x0F, .oraLong a)
  | .mem (.longX a) => some (0x1F, .oraLongX a)
  | .mem (.sr d) => some (0x03, .oraSr d)
  | .mem (.indSrY d) => some (0x13, .oraIndSrY d)
  | .mem (.dpY _) => none

/-- The forms of EOR (R229). -/
def eorForm : Source → Option (Byte × Instr)
  | .imm v => some (0x49, .eorImm v)
  | .mem (.dp d) => some (0x45, .eorDp d)
  | .mem (.dpX d) => some (0x55, .eorDpX d)
  | .mem (.indDp d) => some (0x52, .eorIndDp d)
  | .mem (.indDpX d) => some (0x41, .eorIndDpX d)
  | .mem (.indDpY d) => some (0x51, .eorIndDpY d)
  | .mem (.longIndDp d) => some (0x47, .eorLongIndDp d)
  | .mem (.longIndDpY d) => some (0x57, .eorLongIndDpY d)
  | .mem (.abs a) => some (0x4D, .eorAbs a)
  | .mem (.absX a) => some (0x5D, .eorAbsX a)
  | .mem (.absY a) => some (0x59, .eorAbsY a)
  | .mem (.long a) => some (0x4F, .eorLong a)
  | .mem (.longX a) => some (0x5F, .eorLongX a)
  | .mem (.sr d) => some (0x43, .eorSr d)
  | .mem (.indSrY d) => some (0x53, .eorIndSrY d)
  | .mem (.dpY _) => none

/-- The forms of BIT (R230). -/
def bitForm : Source → Option (Byte × Instr)
  | .imm v => some (0x89, .bitImm v)
  | .mem (.dp d) => some (0x24, .bitDp d)
  | .mem (.dpX d) => some (0x34, .bitDpX d)
  | .mem (.abs a) => some (0x2C, .bitAbs a)
  | .mem (.absX a) => some (0x3C, .bitAbsX a)
  | .mem (.dpY _) | .mem (.indDp _) | .mem (.indDpX _) | .mem (.indDpY _) | .mem (.longIndDp _)
  | .mem (.longIndDpY _) | .mem (.absY _) | .mem (.long _) | .mem (.longX _) | .mem (.sr _) | .mem (.indSrY _) => none

/-- The forms of STA (R164). -/
def staForm : Mode → Option (Byte × Instr)
  | .dp d => some (0x85, .staDp d)
  | .dpX d => some (0x95, .staDpX d)
  | .indDp d => some (0x92, .staIndDp d)
  | .indDpX d => some (0x81, .staIndDpX d)
  | .indDpY d => some (0x91, .staIndDpY d)
  | .longIndDp d => some (0x87, .staLongIndDp d)
  | .longIndDpY d => some (0x97, .staLongIndDpY d)
  | .abs a => some (0x8D, .staAbs a)
  | .absX a => some (0x9D, .staAbsX a)
  | .absY a => some (0x99, .staAbsY a)
  | .long a => some (0x8F, .staLong a)
  | .longX a => some (0x9F, .staLongX a)
  | .sr d => some (0x83, .staSr d)
  | .indSrY d => some (0x93, .staIndSrY d)
  | .dpY _ => none

/-- The forms of STX (R165). -/
def stxForm : Mode → Option (Byte × Instr)
  | .dp d => some (0x86, .stxDp d)
  | .dpY d => some (0x96, .stxDpY d)
  | .abs a => some (0x8E, .stxAbs a)
  | .dpX _ | .indDp _ | .indDpX _ | .indDpY _ | .longIndDp _ | .longIndDpY _ | .absX _ | .absY _ | .long _
  | .longX _ | .sr _ | .indSrY _ => none

/-- The forms of STY (R166). -/
def styForm : Mode → Option (Byte × Instr)
  | .dp d => some (0x84, .styDp d)
  | .dpX d => some (0x94, .styDpX d)
  | .abs a => some (0x8C, .styAbs a)
  | .dpY _ | .indDp _ | .indDpX _ | .indDpY _ | .longIndDp _ | .longIndDpY _ | .absX _ | .absY _ | .long _
  | .longX _ | .sr _ | .indSrY _ => none

/-- The forms of STZ (R167). -/
def stzForm : Mode → Option (Byte × Instr)
  | .dp d => some (0x64, .stzDp d)
  | .dpX d => some (0x74, .stzDpX d)
  | .abs a => some (0x9C, .stzAbs a)
  | .absX a => some (0x9E, .stzAbsX a)
  | .dpY _ | .indDp _ | .indDpX _ | .indDpY _ | .longIndDp _ | .longIndDpY _ | .absY _ | .long _ | .longX _
  | .sr _ | .indSrY _ => none

/-- The forms of TSB (R231). -/
def tsbForm : Mode → Option (Byte × Instr)
  | .dp d => some (0x04, .tsbDp d)
  | .abs a => some (0x0C, .tsbAbs a)
  | .dpX _ | .dpY _ | .indDp _ | .indDpX _ | .indDpY _ | .longIndDp _ | .longIndDpY _ | .absX _ | .absY _
  | .long _ | .longX _ | .sr _ | .indSrY _ => none

/-- The forms of TRB (R232). -/
def trbForm : Mode → Option (Byte × Instr)
  | .dp d => some (0x14, .trbDp d)
  | .abs a => some (0x1C, .trbAbs a)
  | .dpX _ | .dpY _ | .indDp _ | .indDpX _ | .indDpY _ | .longIndDp _ | .longIndDpY _ | .absX _ | .absY _
  | .long _ | .longX _ | .sr _ | .indSrY _ => none

/-- The forms of ASL (R233). -/
def aslForm : Target → Option (Byte × Instr)
  | .acc => some (0x0A, .aslAcc)
  | .mem (.dp d) => some (0x06, .aslDp d)
  | .mem (.dpX d) => some (0x16, .aslDpX d)
  | .mem (.abs a) => some (0x0E, .aslAbs a)
  | .mem (.absX a) => some (0x1E, .aslAbsX a)
  | .mem (.dpY _) | .mem (.indDp _) | .mem (.indDpX _) | .mem (.indDpY _) | .mem (.longIndDp _)
  | .mem (.longIndDpY _) | .mem (.absY _) | .mem (.long _) | .mem (.longX _) | .mem (.sr _) | .mem (.indSrY _) => none

/-- The forms of LSR (R234). -/
def lsrForm : Target → Option (Byte × Instr)
  | .acc => some (0x4A, .lsrAcc)
  | .mem (.dp d) => some (0x46, .lsrDp d)
  | .mem (.dpX d) => some (0x56, .lsrDpX d)
  | .mem (.abs a) => some (0x4E, .lsrAbs a)
  | .mem (.absX a) => some (0x5E, .lsrAbsX a)
  | .mem (.dpY _) | .mem (.indDp _) | .mem (.indDpX _) | .mem (.indDpY _) | .mem (.longIndDp _)
  | .mem (.longIndDpY _) | .mem (.absY _) | .mem (.long _) | .mem (.longX _) | .mem (.sr _) | .mem (.indSrY _) => none

/-- The forms of ROL (R235). -/
def rolForm : Target → Option (Byte × Instr)
  | .acc => some (0x2A, .rolAcc)
  | .mem (.dp d) => some (0x26, .rolDp d)
  | .mem (.dpX d) => some (0x36, .rolDpX d)
  | .mem (.abs a) => some (0x2E, .rolAbs a)
  | .mem (.absX a) => some (0x3E, .rolAbsX a)
  | .mem (.dpY _) | .mem (.indDp _) | .mem (.indDpX _) | .mem (.indDpY _) | .mem (.longIndDp _)
  | .mem (.longIndDpY _) | .mem (.absY _) | .mem (.long _) | .mem (.longX _) | .mem (.sr _) | .mem (.indSrY _) => none

/-- The forms of ROR (R236). -/
def rorForm : Target → Option (Byte × Instr)
  | .acc => some (0x6A, .rorAcc)
  | .mem (.dp d) => some (0x66, .rorDp d)
  | .mem (.dpX d) => some (0x76, .rorDpX d)
  | .mem (.abs a) => some (0x6E, .rorAbs a)
  | .mem (.absX a) => some (0x7E, .rorAbsX a)
  | .mem (.dpY _) | .mem (.indDp _) | .mem (.indDpX _) | .mem (.indDpY _) | .mem (.longIndDp _)
  | .mem (.longIndDpY _) | .mem (.absY _) | .mem (.long _) | .mem (.longX _) | .mem (.sr _) | .mem (.indSrY _) => none

/-- The forms of INC (R237). -/
def incForm : Target → Option (Byte × Instr)
  | .acc => some (0x1A, .incAcc)
  | .mem (.dp d) => some (0xE6, .incDp d)
  | .mem (.dpX d) => some (0xF6, .incDpX d)
  | .mem (.abs a) => some (0xEE, .incAbs a)
  | .mem (.absX a) => some (0xFE, .incAbsX a)
  | .mem (.dpY _) | .mem (.indDp _) | .mem (.indDpX _) | .mem (.indDpY _) | .mem (.longIndDp _)
  | .mem (.longIndDpY _) | .mem (.absY _) | .mem (.long _) | .mem (.longX _) | .mem (.sr _) | .mem (.indSrY _) => none

/-- The forms of DEC (R238). -/
def decForm : Target → Option (Byte × Instr)
  | .acc => some (0x3A, .decAcc)
  | .mem (.dp d) => some (0xC6, .decDp d)
  | .mem (.dpX d) => some (0xD6, .decDpX d)
  | .mem (.abs a) => some (0xCE, .decAbs a)
  | .mem (.absX a) => some (0xDE, .decAbsX a)
  | .mem (.dpY _) | .mem (.indDp _) | .mem (.indDpX _) | .mem (.indDpY _) | .mem (.longIndDp _)
  | .mem (.longIndDpY _) | .mem (.absY _) | .mem (.long _) | .mem (.longX _) | .mem (.sr _) | .mem (.indSrY _) => none

end Sys2Proof.Claims
end

