-- ==== Sys2Proof/Safety.lean ====
section
/-! DEFINITION. What counts as a good state and a safe run, in the terms claims use: the invariants of
`spec/10_state.md` R22, R33, R34 and the canonical form of memory; a step that answers a next state; a step that
reports no unsupported opcode (the strict driver of `spec/60_exceptions.md` R361). -/

namespace Sys2Proof.Machine

/-- `P.X = 1` implies `X[15:8] = 0` and `Y[15:8] = 0` (R22, R33). -/
abbrev State.IndexNarrow (s : State) : Prop :=
  s.flag .X = true → highByte s.X = 0 ∧ highByte s.Y = 0

/-- `E = 1` implies `P.M = 1`, `P.X = 1` and `S[15:8] = 0x01` (R34, R23). -/
abbrev State.EmulationNarrow (s : State) : Prop :=
  s.E = true → s.flag .M = true ∧ s.flag .X = true ∧ highByte s.S = 0x01

/-- The invariant that every command keeps: index widths, emulation mode, canonical memory; and the
record of parameters, which no command changes, is a legal one (`spec/70_reset_and_hazards.md` R400). -/
abbrev State.Inv (s : State) : Prop := s.IndexNarrow ∧ s.EmulationNarrow ∧ s.mem.wf = true ∧ s.params.legal = true

/-- The core takes a `Step` command next and executes an instruction: it has been reset, no input is pending, and it
is `Running`. -/
abbrev State.Ready (s : State) : Prop := s.live = true ∧ s.inputs = [] ∧ s.run = .running

/-- The answer is a next state: neither a fault nor a refusal. -/
def Goes (r : Result) : Prop := ∃ t, r = .next t

/-- The answer is a next state whose command reported no unsupported opcode. -/
def GoesSupported (r : Result) : Prop := ∃ t, r = .next t ∧ ∀ n op, t.out ≠ .step n (.unsupported op)

end Sys2Proof.Machine
end

