-- ==== Sys2Proof/Safety/Vocabulary.lean ====
section
/-! DEFINITION. The vocabulary of the statements: bytes, operands, stack slots and frames in the words of the spec's
rules, and the shapes that several statements share. -/

namespace Sys2Proof.Claims

open Sys2Proof.Machine

/-! ## Memory -/

/-- The byte at `bank:off` (`20_memory.md` R60). -/
def byteIn (s : State) (bank : Byte) (off : Word) : Byte := s.mem.read (bank.toNat * 2 ^ 16 + off.toNat)

/-- The word at `bank:off`, low byte first, the second offset wrapping in 16 bits (R64, R70). -/
def wordIn (s : State) (bank : Byte) (off : Word) : Word := joinBytes (byteIn s bank (off + 1)) (byteIn s bank off)

/-- The 24-bit pointer at `bank:off`, the bank byte last (R64, R71). -/
def addrIn (s : State) (bank : Byte) (off : Word) : Addr :=
  joinAddr (byteIn s bank (off + 2)) (byteIn s bank (off + 1)) (byteIn s bank off)

/-- The `n` byte reads at consecutive offsets of a bank, ascending, each once (R67). -/
def pairReads (s : State) (bank : Byte) (off : Word) (n : Nat) : List BusOp :=
  (List.range n).map fun k => .read8 bank (off + BitVec.ofNat 16 k) (byteIn s bank (off + BitVec.ofNat 16 k))

/-- The `w`-bit value at an effective address (R72). -/
def dataAt (s : State) (ea : Ea) (w : Width) : Word :=
  match w with
  | .narrow => zeroExtend (s.mem.read ea.cell)
  | .wide => joinBytes (s.mem.read (s.succ ea).cell) (s.mem.read ea.cell)

/-- The bus reads of a `w`-bit value, low byte first (R72). -/
def dataReads (s : State) (ea : Ea) (w : Width) : List BusOp :=
  match w with
  | .narrow => [ea.readOp (s.mem.read ea.cell)]
  | .wide => [ea.readOp (s.mem.read ea.cell), (s.succ ea).readOp (s.mem.read (s.succ ea).cell)]

/-- The bus writes of a `w`-bit value, low byte first (R73). -/
def dataWrites (s : State) (ea : Ea) (w : Width) (v : Word) : List BusOp :=
  match w with
  | .narrow => [ea.writeOp (lowByte v)]
  | .wide => [ea.writeOp (lowByte v), (s.succ ea).writeOp (highByte v)]

/-- `t`'s memory is `s`'s with the `w`-bit value `v` at `ea`, and every other byte as before (R73). -/
def DataStored (ea : Ea) (w : Width) (v : Word) (s t : State) : Prop :=
  t.mem.read ea.cell = lowByte v ∧ (w = .wide → t.mem.read (s.succ ea).cell = highByte v) ∧
  ∀ k, k ≠ ea.cell → (w = .wide → k ≠ (s.succ ea).cell) → t.mem.read k = s.mem.read k

/-! ## Registers and flags -/

/-- `A[w-1:0] <- v`; a narrow write keeps `A[15:8]` (`10_state.md` R32, `41_load_store_transfer.md` R160). -/
def AccumulatorGets (w : Width) (v : Word) (s t : State) : Prop :=
  match w with
  | .narrow => lowByte t.A = lowByte v ∧ highByte t.A = highByte s.A
  | .wide => t.A = v

/-- `P.Z` and `P.N` are those of the `w`-bit value `v` (R37). -/
def NegativeZero (w : Width) (v : Word) (t : State) : Prop :=
  t.flag .Z = decide (v = 0) ∧ t.flag .N = v.getLsbD (match w with | .narrow => 7 | .wide => 15)

/-- No flag but those of `fs` differs. -/
def OnlyFlags (fs : List Flag) (s t : State) : Prop := ∀ f, f ∉ fs → t.flag f = s.flag f

/-- `X` or `Y` after a whole write of `P` that left the status byte `p`: the high byte is gone if `P.X = 1` (R33,
R35). -/
def truncated (p : Byte) (v : Word) : Word := if p.getLsbD 4 then v &&& 0x00FF else v

/-- `P` after `SetP(v)` (R35). -/
def forced (e : Bool) (v : Byte) : Byte := if e then v ||| 0x30 else v

/-- An ADC or SBC from `s` is binary: the part has no decimal arithmetic, or `P.D` is clear (`42_arithmetic_logic.md`
R222). -/
abbrev Binary (s : State) : Prop := s.params.decimalArith = false ∨ s.flag .D = false

/-- `LongAdd(a, i)` (`40_addressing_modes.md` R131): the sum is reduced to 24 bits where `LONG_CARRY` is set, and
otherwise wraps inside the bank of `a`. -/
def longSum (s : State) (a : Addr) (i : Word) : Addr :=
  if s.params.longCarry then BitVec.ofNat 24 (a.toNat + i.toNat)
  else BitVec.ofNat 24 (a.toNat / 65536 * 65536 + (a.toNat + i.toNat) % 65536)

/-! ## The stack (`20_memory.md` R74, `10_state.md` R36) -/

/-- `S` after one push. -/
def stackDown (e : Bool) (p : Word) : Word := if e then 0x0100 ||| ((p - 1) &&& 0x00FF) else p - 1

/-- `S` after one pull. -/
def stackUp (e : Bool) (p : Word) : Word := if e then 0x0100 ||| ((p + 1) &&& 0x00FF) else p + 1

/-- The slots of bank 0 that pushing `bs`, first byte first, writes, with the byte of each. -/
def pushSlots (e : Bool) (p : Word) (bs : List Byte) : List (Word × Byte) :=
  match bs with
  | [] => []
  | b :: rest => (p, b) :: pushSlots e (stackDown e p) rest

/-- `S` after pushing `n` bytes. -/
def stackAfterPushes (e : Bool) (p : Word) (n : Nat) : Word :=
  match n with
  | 0 => p
  | k + 1 => stackAfterPushes e (stackDown e p) k

/-- The bus writes of the pushes. -/
def pushWrites (s : State) (bs : List Byte) : List BusOp := (pushSlots s.E s.S bs).map fun x => .write8 0x00 x.1 x.2

/-- From `s` to `t` the bytes `bs` were pushed, and no other byte of memory differs. -/
def Pushed (bs : List Byte) (s t : State) : Prop :=
  (∀ x ∈ pushSlots s.E s.S bs, t.mem.read x.1.toNat = x.2) ∧
  (∀ k, (∀ x ∈ pushSlots s.E s.S bs, k ≠ x.1.toNat) → t.mem.read k = s.mem.read k) ∧
  t.S = stackAfterPushes s.E s.S bs.length

/-- The offset in bank 0 of the `n`-th byte to pull, from `n = 1`; it is also `S` after `n` pulls. -/
def pullSlot (s : State) (n : Nat) : Word :=
  match n with
  | 0 => s.S
  | k + 1 => stackUp s.E (pullSlot s k)

/-- The `n`-th byte pulled, from `n = 1`. -/
def pulledByte (s : State) (n : Nat) : Byte := byteIn s 0x00 (pullSlot s n)

/-- The two bytes pulled from the `n`-th on, as a word, low byte first (`20_memory.md` R76). -/
def pulledWord (s : State) (n : Nat) : Word := joinBytes (pulledByte s (n + 1)) (pulledByte s n)

/-- The bus reads of `n` pulls. -/
def pullReads (s : State) (n : Nat) : List BusOp :=
  (List.range n).map fun k => .read8 0x00 (pullSlot s (k + 1)) (pulledByte s (k + 1))

/-- How many bytes a `w`-bit value has. -/
def byteCount : Width → Nat
  | .narrow => 1
  | .wide => 2

/-- The bytes in which a `w`-bit value is pushed, high byte first (R76). -/
def pushOrder (w : Width) (v : Word) : List Byte :=
  match w with
  | .narrow => [lowByte v]
  | .wide => [highByte v, lowByte v]

/-- The `w`-bit value that a pull gives (R74, R76). -/
def pulledData (w : Width) (s : State) : Word :=
  match w with
  | .narrow => zeroExtend (pulledByte s 1)
  | .wide => pulledWord s 1

/-! ## Shapes of instructions -/

/-- `i` runs from `s` and pushes `bs`, and does nothing else; `reads` are its bus reads before the pushes. -/
def PushesOnly (i : Instr) (reads : List BusOp) (bs : List Byte) (s : State) : Prop :=
  ∃ t, exec i s = .next t ∧ Pushed bs s t ∧
    t = { s with S := t.S, mem := t.mem, bus := s.bus ++ reads ++ pushWrites s bs }

/-- `i` runs from `s` and stores the `w`-bit value `v` at the effective address of `m`, and does nothing else: no
register, no flag, no read of the destination. -/
def StoresOnly (i : Instr) (m : Mode) (w : Width) (v : Word) (s : State) : Prop :=
  ∃ t, exec i s = .next t ∧ DataStored (effectiveAddress m s).1 w v s t ∧
    t = { s with mem := t.mem, bus := (effectiveAddress m s).2.bus ++ dataWrites s (effectiveAddress m s).1 w v }

/-- `i` runs from `s`, reads the operand `src` at width `w`, sets `N`, `Z` and `C` of `a - m` and changes nothing else
(`42_arithmetic_logic.md` R224): `C` is "no borrow", `N` and `Z` are of the difference. -/
def Compares (i : Instr) (src : Source) (w : Width) (a : Word) (s : State) : Prop :=
  ∃ t, exec i s = .next t ∧
    t.flag .C = decide ((operandRead src w s).1.toNat ≤ a.toNat) ∧
    NegativeZero w (takeBits w (a - (operandRead src w s).1)) t ∧ OnlyFlags [.N, .Z, .C] s t ∧
    t = { s with P := t.P, bus := (operandRead src w s).2.bus }

/-- `i` runs from `s`, replaces the `w`-bit operand `v` at `target` by `r`, changes at most the flags `fs`, as `flags`
says, and nothing else: in the accumulator (R122), or in memory with one read pass and one write pass at one address
(`20_memory.md` R78). -/
def Modifies (i : Instr) (target : Target) (w : Width) (r : Word → Word) (fs : List Flag) (flags : Word → State → Prop)
    (s : State) : Prop :=
  ∃ t, exec i s = .next t ∧ OnlyFlags fs s t ∧
    match target with
    | .acc =>
      AccumulatorGets w (r (takeBits w s.A)) s t ∧ flags (takeBits w s.A) t ∧ t = { s with A := t.A, P := t.P }
    | .mem m =>
      let ea := (effectiveAddress m s).1
      DataStored ea w (r (dataAt s ea w)) s t ∧ flags (dataAt s ea w) t ∧
      t = { s with
            P := t.P, mem := t.mem,
            bus := (effectiveAddress m s).2.bus ++ dataReads s ea w ++ dataWrites s ea w (r (dataAt s ea w)) }

/-- From `s` an interrupt sequence with return offset `ret` and the given vectors led to `t`
(`60_exceptions.md` R368). -/
def Entered (vecN vecE ret : Word) (s t : State) : Prop :=
  let frame := (if s.E then [] else [s.PBR]) ++ [highByte ret, lowByte ret, s.P]
  let vec := if s.E then vecE else vecN
  Pushed frame s t ∧ t.flag .D = false ∧ t.flag .I = true ∧ OnlyFlags [.D, .I] s t ∧ t.PBR = 0x00 ∧
  t.PC = wordIn t 0x00 vec ∧ t.run = .running ∧
  t = { s with
        S := t.S, P := t.P, PBR := t.PBR, PC := t.PC, run := t.run, mem := t.mem,
        bus := s.bus ++ pushWrites s frame ++ pairReads t 0x00 vec 2 }

/-- The target of a relative branch: the signed displacement added to the offset of the next instruction, in 16 bits
(`40_addressing_modes.md` R144). -/
def branchTarget (pc : Word) (r : Byte) : Word := BitVec.ofInt 16 (pc.toNat + r.toInt)

/-- `i` reads or writes `A[15:8]` even while `P.M = 1` (`10_state.md` R21): the byte exchange, the 16-bit transfers,
the block-move count, and the transfers to an index register while that one is wide. -/
def UsesHighA (i : Instr) (x : Bool) : Prop :=
  i ∈ [.xba, .tcs, .tsc, .tcd, .tdc] ∨ (∃ dst src, i = .mvn dst src ∨ i = .mvp dst src) ∨
  (x = false ∧ i ∈ [.tax, .tay])

end Sys2Proof.Claims
end

