-- ==== Sys2Proof/Certificates/Slice0/Obligations.lean ====
section
/-! DEFINITION. The statements for the provers. In every statement about `exec` the program counter of the state before
is already past the instruction's bytes, as `43_control_transfer.md` R270 takes it. -/


open Sys2Proof Sys2Proof.Machine Sys2Proof.Claims

/-! ## Encoding -/

/-- Words written out from the spec's own examples decode to the instructions they stand for: `A9 42` (R161),
`A2 34 12` with wide index (R162), `8D 00 20` (R164), `5C 56 34 12` (R283), `54 7F 7E`, destination bank first (R211),
`00 xx` (R340), `62 10 00` (R200). -/
def Obligations.SampleWordsDecode : Prop :=
  decode true true [0xA9, 0x42] = .ok (.ldaImm (.byte 0x42)) ∧
  decode true false [0xA2, 0x34, 0x12] = .ok (.ldxImm (.word 0x1234)) ∧
  decode false false [0x8D, 0x00, 0x20] = .ok (.staAbs 0x2000) ∧
  decode true true [0x5C, 0x56, 0x34, 0x12] = .ok (.jmlLong 0x123456) ∧
  decode true true [0x54, 0x7F, 0x7E] = .ok (.mvn 0x7F 0x7E) ∧
  decode true true [0x00, 0xEA] = .ok (.brk 0xEA) ∧
  decode true true [0x62, 0x10, 0x00] = .ok (.per 0x0010) ∧
  decode false true [0x09, 0x00, 0x80] = .ok (.oraImm (.word 0x8000)) ∧
  decode true true [0xF0, 0x01] = .ok (.beq 0x01) ∧
  decode true true [0xFB] = .ok .xce

/-- Decoding the bytes of a well-formed instruction, whatever follows them, gives the instruction back
(`30_encoding.md` R91 to R94): no bit of an operand is dropped and no two encodings meet. -/
def Obligations.DecodeOfEncode : Prop :=
  ∀ (m x : Bool) (i : Instr) (rest : List Byte), i.wellFormed m x = true → decode m x (encode i ++ rest) = .ok i

/-- The other direction (R91 to R94, R98): every opcode byte gives an instruction at any widths; what decodes is well
formed, and the bytes begin with its encoding. -/
def Obligations.EncodeOfDecode : Prop :=
  (∀ (m x : Bool) (bs : List Byte) (i : Instr), decode m x bs = .ok i →
    i.wellFormed m x = true ∧ ∃ rest, bs = encode i ++ rest) ∧
  (∀ (m x : Bool) (op b1 b2 b3 : Byte), ∃ i, decode m x [op, b1, b2, b3] = .ok i ∧ (encode i).head? = some op)

/-- The opcode bytes of the forms for which a statement below gives the effect alone: LDA (`41_load_store_transfer.md`
R161), the compares (`42_arithmetic_logic.md` R224 to R226), REP and SEP (`44_mode_and_flags.md` R311, R312). The
values are the spec's general knowledge (D2). -/
def Obligations.LoadCompareAndStatusOpcodes : Prop :=
  (∀ (src : Source) (op : Byte) (i : Instr),
    (ldaForm src = some (op, i) ∨ cmpForm src = some (op, i) ∨ cpxForm src = some (op, i) ∨ cpyForm src = some (op, i)) →
    (encode i).head? = some op) ∧
  (∀ v : Byte, encode (.rep v) = [0xC2, v] ∧ encode (.sep v) = [0xE2, v])

/-- `30_encoding.md` R99: exactly two mode bits change decoding, `P.M` the length of eight opcodes and `P.X` that of
four; each is two bytes long when its flag is set and three when it is clear. The opcode lists are the spec's general
knowledge (D2). -/
def Obligations.OnlyWidthFlagsChangeLength : Prop :=
  let byM : List Byte := [0x09, 0x29, 0x49, 0x69, 0x89, 0xA9, 0xC9, 0xE9]
  let byX : List Byte := [0xA0, 0xA2, 0xC0, 0xE0]
  ∀ (m x m' x' : Bool) (op : Byte),
    (op ∈ byM → instructionLength m x op = if m then 2 else 3) ∧
    (op ∈ byX → instructionLength m x op = if x then 2 else 3) ∧
    (op ∉ byM → op ∉ byX → instructionLength m x op = instructionLength m' x' op)

/-! ## The Step command -/

/-- A step that finds the core ready runs the instruction that decodes at `PBR:PC` (`30_encoding.md` R90): its bytes
are fetched in ascending order, `PC` moves past them, the cycle cost is that of the opcode, and `exec` does the
rest. -/
def Obligations.StepRunsTheDecodedInstruction : Prop :=
  ∀ (s : State) (i : Instr), s.Ready → s.params.supported (byteIn s s.PBR s.PC) = true →
    decode (s.flag .M) (s.flag .X) s.codeBytes = .ok i →
    let n := fetchedLength (s.flag .M) (s.flag .X) (byteIn s s.PBR s.PC)
    step s = exec i { s with
      PC := s.PC + BitVec.ofNat 16 n, bus := pairReads s s.PBR s.PC n,
      out := .step (s.params.cost (byteIn s s.PBR s.PC)) .ok }

/-- A program's bytes run: where the encoding of a well-formed instruction stands at `PBR:PC`, wrapping in the bank,
and its opcode is supported, the step executes it with `PC` past it (R90, R91); of BRK and COP only the opcode byte is
fetched (R92, D26). -/
def Obligations.StepRunsPlacedInstruction : Prop :=
  ∀ (s : State) (i : Instr), s.Ready → i.wellFormed (s.flag .M) (s.flag .X) = true →
    s.params.supported (byteIn s s.PBR s.PC) = true →
    (∀ k b, (encode i)[k]? = some b → byteIn s s.PBR (s.PC + BitVec.ofNat 16 k) = b) →
    let n := match i with
      | .brk _ | .cop _ => 1
      | _ => (encode i).length
    step s = exec i { s with
      PC := s.PC + BitVec.ofNat 16 n, bus := pairReads s s.PBR s.PC n,
      out := .step (s.params.cost (byteIn s s.PBR s.PC)) .ok }

/-- `10_state.md` R38: the run state has three values, the output `halted` is `run != Running`, and a `Step` with `run`
other than `Running` fetches nothing and changes no state of the core or of memory; it costs `CYC_MIN`, for this case
the source's 1. -/
def Obligations.StepWhileNotRunning : Prop :=
  (∀ r : RunState, r = .running ∨ r = .halted ∨ r = .stopped) ∧
  (∀ s : State, s.halted = true ↔ s.run ≠ .running) ∧
  (∀ s : State, s.live = true → s.inputs = [] → s.run ≠ .running →
    step s = .next { s with bus := [], out := .step s.params.cycMin .ok }) ∧
  Config.parameters.cycMin = 1

/-- `60_exceptions.md` R361, `30_encoding.md` R97, `44_mode_and_flags.md` R321: an opcode outside `SUPPORTED` is consumed
alone, whatever follows, and reported, and nothing else changes; `exec` of WDM reports too, and where `0x42` is
supported does nothing. The default leaves out `0x42` alone (D3). That the run goes on is the permissive driver, the
model's choice (log 5). -/
def Obligations.UnsupportedOpcodeIsReported : Prop :=
  (∀ (s : State) (op : Byte), s.Ready → byteIn s s.PBR s.PC = op → s.params.supported op = false →
    step s = .next { s with
      PC := s.PC + 1, bus := [.read8 s.PBR s.PC op], out := .step s.params.cycMin (.unsupported op) }) ∧
  (∀ (v : Byte) (s : State), encode (.wdm v) = [0x42, v] ∧
    (s.params.supported 0x42 = false →
      exec (.wdm v) s = .next { s with out := .step s.params.cycMin (.unsupported 0x42) }) ∧
    (s.params.supported 0x42 = true → exec (.wdm v) s = .next s)) ∧
  (∀ op, Config.parameters.supported op = false ↔ op = 0x42)

/-- `00_scope.md` R5, R6, in the model's rendering (log 7): the first pending input is taken; an environment write
changes that byte and nothing else, a `Step` input is the `Step` of the state in which the others wait, and with no
input pending a step is a `Step` command. Before the first `Reset` a `Step`, `Nmi` or `Irq` is refused
(`10_state.md` R41). -/
def Obligations.FirstInputIsTaken : Prop :=
  (∀ (s : State) (a : Addr) (v : Byte) (rest : List Input), s.mem.wf = true → s.inputs = .busWrite a v :: rest →
    ∃ t, step s = .next t ∧ t.mem.read a.toNat = v ∧ (∀ k, k ≠ a.toNat → t.mem.read k = s.mem.read k) ∧
      t = { s with mem := t.mem, inputs := rest }) ∧
  (∀ (s : State) (rest : List Input), s.live = true → s.inputs = .step :: rest →
    step s = stepCommand { s with inputs := rest }) ∧
  (∀ s : State, s.live = true → s.inputs = [] → step s = stepCommand s) ∧
  (∀ s : State, s.live = false → (s.inputs = [] ∨ ∃ i rest, s.inputs = i :: rest ∧ i ∈ [.step, .nmi, .irq]) →
    step s = .refused .beforeFirstReset)

/-- `60_exceptions.md` R360: the core has no fault. Every step of a machine that has been reset answers a next
state, and so does a reset or an environment write before that. -/
def Obligations.EveryStepGoesOn : Prop :=
  ∀ s : State, (s.live = true ∨ ∃ i rest, s.inputs = i :: rest ∧ (i = .reset ∨ ∃ a v, i = .busWrite a v)) → Goes (step s)

/-! ## Reset, interrupts, run states -/

/-- `70_reset_and_hazards.md` R400 and `10_state.md` R40: what `Reset` leaves, from any state. `E`, `S`, `PBR` and `run`
are the source's (Scenario 1), and so is that `PC` is the word at the reset vector; where the vector lies (`VEC_RESET`,
D7) and the values of `A`, `X`, `Y`, `D`, `DB` and `P` (`RESET_*`, D9, log 3) are parameters (log 4). Memory is not
changed; the bus carries the two vector reads. A second `Reset` leaves the same state (R401). -/
def Obligations.ResetLeavesTheResetValues : Prop :=
  ∀ (s : State) (rest : List Input), s.inputs = .reset :: rest →
    let c := s.params
    ∃ t, step s = .next t ∧
      t = { s with
            E := true, S := 0x01FF, PBR := 0x00, PC := wordIn s 0x00 c.vecReset, run := .running, P := c.resetP,
            A := c.resetA, X := c.resetX &&& 0x00FF, Y := c.resetY &&& 0x00FF, D := c.resetD, DB := c.resetDB,
            live := true, inputs := rest, out := .nothing, bus := pairReads s 0x00 c.vecReset 2 } ∧
      ∀ rest', step { t with inputs := .reset :: rest' } = .next { t with inputs := rest' }

/-- `60_exceptions.md` R366: `Nmi` enters through the NMI vector (`VEC_N_NMI`, `VEC_E_NMI`, parameters, D7) with the
offset of the next instruction, whatever `P.I` is and also from `Halted`; in `Stopped` it has no effect (D20). -/
def Obligations.NmiEntersUnlessStopped : Prop :=
  ∀ (s : State) (rest : List Input), s.live = true → s.inputs = .nmi :: rest → s.mem.wf = true →
    (s.run = .stopped → step s = .next { s with inputs := rest, bus := [], out := .nothing }) ∧
    (s.run ≠ .stopped → ∃ t, step s = .next t ∧
      Entered s.params.vecNativeNmi s.params.vecEmulationNmi s.PC { s with inputs := rest, bus := [], out := .nothing } t)

/-- `60_exceptions.md` R367 (D21): `Irq` is taken exactly with `P.I = 0` in `Running`, and in `Halted` where
`IRQ_WAKES_WAIT` is set (D22, by default it is not); it enters through the IRQ vector (`VEC_N_IRQ`, `VEC_E_IRQBRK`,
parameters, D7, D8) and says whether it was taken; otherwise it has no effect. -/
def Obligations.IrqEntersWhenEnabled : Prop :=
  ∀ (s : State) (rest : List Input), s.live = true → s.inputs = .irq :: rest → s.mem.wf = true →
    let due := (s.run = .running ∨ (s.run = .halted ∧ s.params.irqWakesWait = true)) ∧ s.flag .I = false
    (¬ due → step s = .next { s with inputs := rest, bus := [], out := .irq false }) ∧
    (due → ∃ t, step s = .next t ∧
      Entered s.params.vecNativeIrq s.params.vecEmulationIrqBrk s.PC
        { s with inputs := rest, bus := [], out := .irq true } t)

/-- `45_system.md` R340, R341 with `60_exceptions.md` R368: BRK and COP take the interrupt sequence whatever `P.I`
is, each through its vectors (`VEC_N_BRK`, `VEC_E_IRQBRK`, `VEC_N_COP`, `VEC_E_COP`: parameters, D7 and, for the native
BRK vector, D8), with the return offset one past the signature byte, which is not fetched (D26). `PC` before is past the
opcode byte alone. -/
def Obligations.SoftwareInterruptsEnter : Prop :=
  ∀ (sig : Byte) (s : State), s.mem.wf = true →
    let c := s.params
    (encode (.brk sig) = [0x00, sig] ∧
      ∃ t, exec (.brk sig) s = .next t ∧ Entered c.vecNativeBrk c.vecEmulationIrqBrk (s.PC + 1) s t) ∧
    (encode (.cop sig) = [0x02, sig] ∧
      ∃ t, exec (.cop sig) s = .next t ∧ Entered c.vecNativeCop c.vecEmulationCop (s.PC + 1) s t)

/-- `45_system.md` R342: RTI pulls `P` through `SetP`, then `PC`, low byte first and with no 1 added, then, in native
mode only, `PBR`. -/
def Obligations.RtiPullsTheFrame : Prop :=
  ∀ s : State, encode .rti = [0x40] ∧
    let p := forced s.E (pulledByte s 1)
    let n := if s.E then 3 else 4
    exec .rti s = .next { s with
      P := p, X := truncated p s.X, Y := truncated p s.Y, PC := pulledWord s 2,
      PBR := if s.E then s.PBR else pulledByte s 4, S := pullSlot s n, bus := s.bus ++ pullReads s n }

/-- `45_system.md` R342: RTI "is the exact inverse of the entry sequence" (R368). From a state that meets the
invariants of R22 and R34, RTI at the state that BRK or COP left gives back `P`, `S`, the index registers and the
return address; in emulation mode `PBR` is lost, being cleared. -/
def Obligations.RtiUndoesTheEntry : Prop :=
  ∀ (i : Instr) (sig : Byte) (s : State), (i = .brk sig ∨ i = .cop sig) → s.Inv →
    ∃ t u, exec i s = .next t ∧ exec .rti t = .next u ∧ u.PC = s.PC + 1 ∧ u.P = s.P ∧ u.S = s.S ∧ u.X = s.X ∧
      u.Y = s.Y ∧ u.E = s.E ∧ u.PBR = if s.E then 0x00 else s.PBR

/-- `45_system.md` R343, R344: WAI and STP change the run state and nothing else. -/
def Obligations.WaitAndStopChangeOnlyTheRunState : Prop :=
  ∀ s : State,
    (encode .wai = [0xCB] ∧ exec .wai s = .next { s with run := .halted }) ∧
    (encode .stp = [0xDB] ∧ exec .stp s = .next { s with run := .stopped })

/-- `60_exceptions.md` R365, R370: what one iteration of the scheduler's loop issues: of the requests that are due,
`Reset` before `Nmi` before `Irq`, one of them, and only then the `Step`, unless the transfer engine has the bus. -/
def Obligations.SchedulerPriority : Prop :=
  ∀ l : Lines,
    (l.resetRequested = true → serviceInputs l = [.reset]) ∧
    (l.resetRequested = false → l.nmiPending = true → serviceInputs l = [.nmi]) ∧
    (l.resetRequested = false → l.nmiPending = false → l.irqPending = true → serviceInputs l = [.irq]) ∧
    (l.resetRequested = false → l.nmiPending = false → l.irqPending = false → serviceInputs l = []) ∧
    (l.transferClaims = false → driverInputs l = serviceInputs l ++ [.step]) ∧
    (l.transferClaims = true → driverInputs l = serviceInputs l)

/-- `60_exceptions.md` R375, the transitions of a `Step` in `Running`: WAI leads to `Halted`, STP to `Stopped`, every
other instruction stays in `Running`. -/
def Obligations.OnlyWaiAndStpLeaveRunning : Prop :=
  ∀ (i : Instr) (s : State), s.run = .running → ∃ t, exec i s = .next t ∧
    (i = .wai → t.run = .halted) ∧ (i = .stp → t.run = .stopped) ∧ (i ≠ .wai → i ≠ .stp → t.run = .running)

/-- `60_exceptions.md` R375, R385: a core that does not run stays as it is through any number of steps: a stopped one
until a `Reset` (D20), a halted one until a `Reset`, an `Nmi` or, where `IRQ_WAKES_WAIT` is set (D22), an `Irq`. All
eleven items of its state survive, and memory changes only where the environment writes. -/
def Obligations.SleepingCoreIsUnchanged : Prop :=
  ∀ (n : Nat) (s : State), s.live = true → .reset ∉ s.inputs →
    (s.run = .stopped ∨ (s.run = .halted ∧ .nmi ∉ s.inputs ∧ (s.params.irqWakesWait = true → .irq ∉ s.inputs))) →
    ∃ t, Host.Core.run Sys2Proof.core n s = .next t ∧ t.snapshot = s.snapshot ∧
      ∀ k, (∀ a v, .busWrite a v ∈ s.inputs → a.toNat ≠ k) → t.mem.read k = s.mem.read k

/-! ## Invariants and rules of the whole machine -/

/-- `10_state.md` R34 with R22 (the spec's inference), R33: after every command, emulation mode has narrow widths and `S`
in page 1, and narrow index registers have a zero high byte; memory is in the model's canonical form (log 1), and the
parameters, which no command changes, stay legal: `RESET_P` has bits 5 and 4 set (`70_reset_and_hazards.md` R400). -/
def Obligations.EveryStepKeepsTheInvariant : Prop :=
  ∀ s t : State, s.Inv → step s = .next t → t.Inv

/-- The invariant of R22, R34 and the canonical memory hold right after reset. -/
def Obligations.ResetMeetsTheInvariant : Prop := State.reset.Inv

/-- `10_state.md` R32: while `P.M = 1` the high byte of `A` is preserved but inert. For every instruction of
accumulator width: the high byte is kept, and a run from a state with another high byte differs in that byte alone,
so that no flag, register, store or bus access depends on it. Shut out are the instructions that R21 names as the
ways to reach it. And an instruction that changes `P.M`, in either direction, changes no bit of `A`. -/
def Obligations.NarrowAccumulatorHighByteIsInert : Prop :=
  (∀ (i : Instr) (s t : State) (h : Byte), s.flag .M = true → ¬ UsesHighA i (s.flag .X) → exec i s = .next t →
    highByte t.A = highByte s.A ∧
    exec i { s with A := joinBytes h (lowByte s.A) } = .next { t with A := joinBytes h (lowByte t.A) }) ∧
  (∀ (i : Instr) (s t : State), exec i s = .next t → t.flag .M ≠ s.flag .M → t.A = s.A)

/-- `10_state.md` R42 (the spec's own summary) for the control registers: `E` is written by XCE alone, `D` by PLD and
TCD, `DB` by PLB and the block moves, `PBR` by the long jumps, calls and returns and the interrupts, `S` by the
transfers, XCE, pushes, pulls, calls, returns and interrupts. No instruction touches the inputs, the reset mark or the
parameters. -/
def Obligations.ControlRegisterWriters : Prop :=
  ∀ (i : Instr) (s t : State), exec i s = .next t →
    (i ≠ .xce → t.E = s.E) ∧
    (i ≠ .pld → i ≠ .tcd → t.D = s.D) ∧
    (i ≠ .plb → (∀ dst src, i ≠ .mvn dst src ∧ i ≠ .mvp dst src) → t.DB = s.DB) ∧
    (i ≠ .rtl → i ≠ .rti → (∀ a, i ≠ .jmlLong a ∧ i ≠ .jsl a) → (∀ a, i ≠ .jmlLongInd a) →
      (∀ sig, i ≠ .brk sig ∧ i ≠ .cop sig) → t.PBR = s.PBR) ∧
    (i ∉ [.txs, .tcs, .xce, .pha, .phx, .phy, .php, .phb, .phk, .phd, .pla, .plx, .ply, .plp, .plb, .pld, .rts, .rtl,
        .rti] → (∀ v, i ≠ .pea v ∧ i ≠ .per v ∧ i ≠ .jsrAbs v ∧ i ≠ .jsrIndX v) →
      (∀ d, i ≠ .pei d ∧ i ≠ .brk d ∧ i ≠ .cop d) → (∀ a, i ≠ .jsl a) → t.S = s.S) ∧
    t.live = s.live ∧ t.inputs = s.inputs ∧ t.params = s.params

/-! ## Memory and operands -/

/-- `20_memory.md` R80 on the model's memory: a load returns the latest store to that byte, a store changes no
other, and the canonical form is kept. -/
def Obligations.MemoryReadsTheLatestWrite : Prop :=
  ∀ (m : Memory) (k : Nat) (v : Byte), m.wf = true → k < 2 ^ 24 →
    (m.write k v).read k = v ∧ (∀ j, j ≠ k → (m.write k v).read j = m.read j) ∧ (m.write k v).wf = true

/-- The model's canonical form (log 1): memories that read alike at every address are one and the same. -/
def Obligations.CanonicalMemoriesAreExtensional : Prop :=
  ∀ m m' : Memory, m.wf = true → m'.wf = true → (∀ k, k < 2 ^ 24 → m.read k = m'.read k) → m = m'

/-- `20_memory.md` R61, R63: a pair address steps on inside its bank; a flat address steps into the next bank where
`LONG_CARRY` is set (the default, D13), and otherwise inside its own; the two forms name one memory (D14). -/
def Obligations.PairAndFlatAddresses : Prop :=
  (∀ bank off, (Ea.pair bank off).cell = bank.toNat * 65536 + off.toNat ∧
    ∀ carry, (Ea.pair bank off).succ carry = .pair bank (BitVec.ofNat 16 (off.toNat + 1))) ∧
  (∀ a, (Ea.flat a).cell = a.toNat ∧ (Ea.flat a).succ true = .flat (BitVec.ofNat 24 (a.toNat + 1)) ∧
    (Ea.flat a).succ false = .flat (BitVec.ofNat 24 (a.toNat / 65536 * 65536 + (a.toNat + 1) % 65536))) ∧
  (∀ a, (Ea.flat a).cell = (Ea.pair (bankOf a) (offsetOf a)).cell) ∧
  (∀ bank off v, (Ea.pair bank off).readOp v = .read8 bank off v ∧ (Ea.pair bank off).writeOp v = .write8 bank off v) ∧
  (∀ a v, (Ea.flat a).readOp v = .readFlat24 a v ∧ (Ea.flat a).writeOp v = .writeFlat24 a v)

/-- `40_addressing_modes.md` R124 to R126, R132 to R137: the modes without a pointer. The sums are natural numbers
reduced to 16 bits; that of `long,X` carries into the bank where `LONG_CARRY` is set (the default, D13) and otherwise
wraps inside it; nothing is read; emulation mode changes nothing (D12). Which bank each mode uses is in part the spec's
general knowledge (D31). -/
def Obligations.DirectEffectiveAddresses : Prop :=
  ∀ (s : State) (d : Byte) (a : Word) (l : Addr),
    effectiveAddress (.dp d) s = (.pair 0x00 (BitVec.ofNat 16 (s.D.toNat + d.toNat)), s) ∧
    effectiveAddress (.dpX d) s = (.pair 0x00 (BitVec.ofNat 16 (s.D.toNat + d.toNat + s.X.toNat)), s) ∧
    effectiveAddress (.dpY d) s = (.pair 0x00 (BitVec.ofNat 16 (s.D.toNat + d.toNat + s.Y.toNat)), s) ∧
    effectiveAddress (.abs a) s = (.pair s.DB a, s) ∧
    effectiveAddress (.absX a) s = (.pair s.DB (BitVec.ofNat 16 (a.toNat + s.X.toNat)), s) ∧
    effectiveAddress (.absY a) s = (.pair s.DB (BitVec.ofNat 16 (a.toNat + s.Y.toNat)), s) ∧
    effectiveAddress (.long l) s = (.flat l, s) ∧
    effectiveAddress (.longX l) s = (.flat (longSum s l s.X), s) ∧
    effectiveAddress (.sr d) s = (.pair 0x00 (BitVec.ofNat 16 (s.S.toNat + d.toNat)), s)

/-- `40_addressing_modes.md` R127 to R131, R138: the modes through a pointer in bank 0. The pointer bytes are read
ascending, each once, and nothing else changes; pre-indexing moves the pointer's place, post-indexing the address it
gives; 16-bit pointers wrap in bank `DB`, 24-bit ones carry where `LONG_CARRY` is set (the default, D13). -/
def Obligations.PointerEffectiveAddresses : Prop :=
  ∀ (s : State) (d : Byte),
    let direct := BitVec.ofNat 16 (s.D.toNat + d.toNat)
    let directX := BitVec.ofNat 16 (s.D.toNat + d.toNat + s.X.toNat)
    let slot := BitVec.ofNat 16 (s.S.toNat + d.toNat)
    let after := fun (place : Word) (n : Nat) => { s with bus := s.bus ++ pairReads s 0x00 place n }
    effectiveAddress (.indDp d) s = (.pair s.DB (wordIn s 0x00 direct), after direct 2) ∧
    effectiveAddress (.indDpX d) s = (.pair s.DB (wordIn s 0x00 directX), after directX 2) ∧
    effectiveAddress (.indDpY d) s =
      (.pair s.DB (BitVec.ofNat 16 ((wordIn s 0x00 direct).toNat + s.Y.toNat)), after direct 2) ∧
    effectiveAddress (.longIndDp d) s = (.flat (addrIn s 0x00 direct), after direct 3) ∧
    effectiveAddress (.longIndDpY d) s =
      (.flat (longSum s (addrIn s 0x00 direct) s.Y), after direct 3) ∧
    effectiveAddress (.indSrY d) s =
      (.pair s.DB (BitVec.ofNat 16 ((wordIn s 0x00 slot).toNat + s.Y.toNat)), after slot 2)

/-- `41_load_store_transfer.md` R160 with `20_memory.md` R72 and `40_addressing_modes.md` R123: the operand of a
memory mode is the `w`-bit value at its effective address, read low byte first after the pointer reads; that of an
immediate of the right length is the number in the instruction, with no bus access. An operand has no bit above `w`.
-/
def Obligations.OperandIsTheValueAtItsAddress : Prop :=
  ∀ (s : State) (w : Width),
    (∀ m, operandRead (.mem m) w s =
      (dataAt s (effectiveAddress m s).1 w,
        { s with bus := (effectiveAddress m s).2.bus ++ dataReads s (effectiveAddress m s).1 w })) ∧
    (∀ v, operandRead (.imm (.byte v)) .narrow s = (zeroExtend v, s)) ∧
    (∀ v, operandRead (.imm (.word v)) .wide s = (v, s)) ∧
    (∀ src, takeBits w (operandRead src w s).1 = (operandRead src w s).1)

/-! ## Loads, stores, transfers -/

/-- `41_load_store_transfer.md` R161, LDA in every form: `v <- OperandRead(mode, wA) ; WriteA(v, wA) ; SetNZ(v,
wA)`, and nothing else. The opcode bytes are in `LoadCompareAndStatusOpcodes`. -/
def Obligations.LdaLoadsTheOperand : Prop :=
  ∀ (src : Source) (op : Byte) (i : Instr) (s : State), ldaForm src = some (op, i) →
    ∃ t, exec i s = .next t ∧
      let v := operandRead src s.wA s
      AccumulatorGets s.wA v.1 s t ∧ NegativeZero s.wA v.1 t ∧ OnlyFlags [.N, .Z] s t ∧
      t = { s with A := t.A, P := t.P, bus := v.2.bus }

/-- `41_load_store_transfer.md` R162, R163, LDX and LDY in every form, at width `wX`; the register gets the
zero-extended operand. That these instructions exist is the spec's general knowledge (D2). -/
def Obligations.LdxAndLdyLoadTheOperand : Prop :=
  ∀ (src : Source) (op : Byte) (i : Instr) (s : State),
    let v := operandRead src s.wX s
    (ldxForm src = some (op, i) → (encode i).head? = some op ∧ ∃ t, exec i s = .next t ∧
      NegativeZero s.wX v.1 t ∧ OnlyFlags [.N, .Z] s t ∧ t = { s with X := v.1, P := t.P, bus := v.2.bus }) ∧
    (ldyForm src = some (op, i) → (encode i).head? = some op ∧ ∃ t, exec i s = .next t ∧
      NegativeZero s.wX v.1 t ∧ OnlyFlags [.N, .Z] s t ∧ t = { s with Y := v.1, P := t.P, bus := v.2.bus })

/-- `41_load_store_transfer.md` R164 to R167, STA, STX, STY and STZ in every form: `OperandWrite(mode, w, v)` of the
register's low `w` bits, or of zero. No flag changes and the destination is not read. The instructions are the
spec's general knowledge (D2). -/
def Obligations.StoresWriteTheRegister : Prop :=
  ∀ (m : Mode) (op : Byte) (i : Instr) (s : State), s.mem.wf = true →
    (staForm m = some (op, i) → (encode i).head? = some op ∧ StoresOnly i m s.wA s.A s) ∧
    (stxForm m = some (op, i) → (encode i).head? = some op ∧ StoresOnly i m s.wX s.X s) ∧
    (styForm m = some (op, i) → (encode i).head? = some op ∧ StoresOnly i m s.wX s.Y s) ∧
    (stzForm m = some (op, i) → (encode i).head? = some op ∧ StoresOnly i m s.wA 0 s)

/-- `41_load_store_transfer.md` R170 to R174, R176, R177: the transfers between `A`, `X`, `Y` and `S` take the width
of the destination, cut the source to it, and set N and Z. The widths are the spec's decision D30. -/
def Obligations.TransfersTakeTheDestinationWidth : Prop :=
  ∀ s : State,
    let toX := fun (i : Instr) (v : Word) => ∃ t, exec i s = .next t ∧ NegativeZero s.wX (takeBits s.wX v) t ∧
      OnlyFlags [.N, .Z] s t ∧ t = { s with X := takeBits s.wX v, P := t.P }
    let toY := fun (i : Instr) (v : Word) => ∃ t, exec i s = .next t ∧ NegativeZero s.wX (takeBits s.wX v) t ∧
      OnlyFlags [.N, .Z] s t ∧ t = { s with Y := takeBits s.wX v, P := t.P }
    let toA := fun (i : Instr) (v : Word) => ∃ t, exec i s = .next t ∧ AccumulatorGets s.wA v s t ∧
      NegativeZero s.wA (takeBits s.wA v) t ∧ OnlyFlags [.N, .Z] s t ∧ t = { s with A := t.A, P := t.P }
    (encode .tax = [0xAA] ∧ toX .tax s.A) ∧ (encode .tsx = [0xBA] ∧ toX .tsx s.S) ∧
    (encode .tyx = [0xBB] ∧ toX .tyx s.Y) ∧ (encode .tay = [0xA8] ∧ toY .tay s.A) ∧
    (encode .txy = [0x9B] ∧ toY .txy s.X) ∧ (encode .txa = [0x8A] ∧ toA .txa s.X) ∧
    (encode .tya = [0x98] ∧ toA .tya s.Y)

/-- `41_load_store_transfer.md` R175, R178 to R181: TCD, TDC and TSC move 16 bits at any width and set N and Z from
all 16; TXS and TCS write `S` through `SetS`, clamped to page 1 in emulation mode, and set no flag (D30). -/
def Obligations.FullWidthTransfers : Prop :=
  ∀ s : State,
    let clamp := fun v : Word => if s.E then 0x0100 ||| (v &&& 0x00FF) else v
    (encode .tcd = [0x5B] ∧ ∃ t, exec .tcd s = .next t ∧ NegativeZero .wide s.A t ∧ OnlyFlags [.N, .Z] s t ∧
      t = { s with D := s.A, P := t.P }) ∧
    (encode .tdc = [0x7B] ∧ ∃ t, exec .tdc s = .next t ∧ NegativeZero .wide s.D t ∧ OnlyFlags [.N, .Z] s t ∧
      t = { s with A := s.D, P := t.P }) ∧
    (encode .tsc = [0x3B] ∧ ∃ t, exec .tsc s = .next t ∧ NegativeZero .wide s.S t ∧ OnlyFlags [.N, .Z] s t ∧
      t = { s with A := s.S, P := t.P }) ∧
    (encode .txs = [0x9A] ∧ exec .txs s = .next { s with S := clamp s.X }) ∧
    (encode .tcs = [0x1B] ∧ exec .tcs s = .next { s with S := clamp s.A })

/-! ## Stack -/

/-- `41_load_store_transfer.md` R185 to R191, R198 to R200: what each push puts on the stack, high byte first, and
that it changes nothing else. PEI reads its word before it pushes. The instructions are the spec's general knowledge
(D2). -/
def Obligations.PushesWriteTheStack : Prop :=
  ∀ (s : State) (v : Word) (d : Byte), s.mem.wf = true →
    let place := BitVec.ofNat 16 (s.D.toNat + d.toNat)
    (encode .pha = [0x48] ∧ PushesOnly .pha [] (pushOrder s.wA s.A) s) ∧
    (encode .phx = [0xDA] ∧ PushesOnly .phx [] (pushOrder s.wX s.X) s) ∧
    (encode .phy = [0x5A] ∧ PushesOnly .phy [] (pushOrder s.wX s.Y) s) ∧
    (encode .php = [0x08] ∧ PushesOnly .php [] [s.P] s) ∧
    (encode .phb = [0x8B] ∧ PushesOnly .phb [] [s.DB] s) ∧
    (encode .phk = [0x4B] ∧ PushesOnly .phk [] [s.PBR] s) ∧
    (encode .phd = [0x0B] ∧ PushesOnly .phd [] [highByte s.D, lowByte s.D] s) ∧
    ((encode (.pea v)).head? = some 0xF4 ∧ PushesOnly (.pea v) [] [highByte v, lowByte v] s) ∧
    ((encode (.pei d)).head? = some 0xD4 ∧ PushesOnly (.pei d) (pairReads s 0x00 place 2)
      [byteIn s 0x00 (place + 1), byteIn s 0x00 place] s) ∧
    ((encode (.per v)).head? = some 0x62 ∧ PushesOnly (.per v) []
      (pushOrder .wide (BitVec.ofNat 16 (s.PC.toNat + v.toNat))) s)

/-- `41_load_store_transfer.md` R192 to R194, R196, R197: PLA, PLX, PLY, PLB and PLD: the value pulled, low byte
first, goes to the register and sets N and Z. The instructions are the spec's general knowledge (D2). -/
def Obligations.PullsLoadTheRegister : Prop :=
  ∀ s : State,
    let after := fun (t : State) (n : Nat) => { s with P := t.P, S := pullSlot s n, bus := s.bus ++ pullReads s n }
    let vA := pulledData s.wA s
    let vX := pulledData s.wX s
    (encode .pla = [0x68] ∧ ∃ t, exec .pla s = .next t ∧ AccumulatorGets s.wA vA s t ∧ NegativeZero s.wA vA t ∧
      OnlyFlags [.N, .Z] s t ∧ t = { after t (byteCount s.wA) with A := t.A }) ∧
    (encode .plx = [0xFA] ∧ ∃ t, exec .plx s = .next t ∧ NegativeZero s.wX vX t ∧ OnlyFlags [.N, .Z] s t ∧
      t = { after t (byteCount s.wX) with X := vX }) ∧
    (encode .ply = [0x7A] ∧ ∃ t, exec .ply s = .next t ∧ NegativeZero s.wX vX t ∧ OnlyFlags [.N, .Z] s t ∧
      t = { after t (byteCount s.wX) with Y := vX }) ∧
    (encode .plb = [0xAB] ∧ ∃ t, exec .plb s = .next t ∧ NegativeZero .narrow (zeroExtend (pulledByte s 1)) t ∧
      OnlyFlags [.N, .Z] s t ∧ t = { after t 1 with DB := pulledByte s 1 }) ∧
    (encode .pld = [0x2B] ∧ ∃ t, exec .pld s = .next t ∧ NegativeZero .wide (pulledWord s 1) t ∧
      OnlyFlags [.N, .Z] s t ∧ t = { after t 2 with D := pulledWord s 1 })

/-- `41_load_store_transfer.md` R195 with `10_state.md` R35: PLP writes all of `P` through `SetP`; bits 5 and 4 stay
set in emulation mode, and an index width that is narrow afterwards truncates `X` and `Y` at once. -/
def Obligations.PlpWritesTheStatus : Prop :=
  ∀ s : State, encode .plp = [0x28] ∧
    let p := forced s.E (pulledByte s 1)
    exec .plp s = .next { s with
      P := p, X := truncated p s.X, Y := truncated p s.Y, S := pullSlot s 1, bus := s.bus ++ pullReads s 1 }

/-! ## Block moves -/

/-- `41_load_store_transfer.md` R210 to R212: one `Step` of MVN or MVP moves one byte, read then written, steps both
pointers at width `wX`, counts `A` down in 16 bits, loads `DB` (general knowledge), and repeats itself, `PC` going
back three bytes, unless the count is then 0 (D18). It costs `CYC_MV_CONTINUE` or `CYC_MV_DONE`, which are parameters
(D25). That a count of 0 at the start wraps and goes on is the spec's own inference (U6, log 14). -/
def Obligations.BlockMoveMovesOneByte : Prop :=
  ∀ (dst src : Byte) (s : State), s.mem.wf = true →
    let moves := fun (i : Instr) (delta : Int) => ∃ t, exec i s = .next t ∧
      t.mem.read (dst.toNat * 65536 + s.Y.toNat) = byteIn s src s.X ∧
      (∀ k, k ≠ dst.toNat * 65536 + s.Y.toNat → t.mem.read k = s.mem.read k) ∧
      t = { s with
            mem := t.mem,
            X := BitVec.ofInt 16 ((s.X.toNat + delta) % (if s.flag .X then 256 else 65536)),
            Y := BitVec.ofInt 16 ((s.Y.toNat + delta) % (if s.flag .X then 256 else 65536)),
            A := s.A - 1, DB := dst, PC := if s.A = 1 then s.PC else s.PC - 3,
            out := .step (if s.A = 1 then s.params.cycMoveDone else s.params.cycMoveContinue) .ok,
            bus := s.bus ++ [.read8 src s.X (byteIn s src s.X), .write8 dst s.Y (byteIn s src s.X)] }
    (encode (.mvn dst src) = [0x54, dst, src] ∧ moves (.mvn dst src) 1) ∧
    (encode (.mvp dst src) = [0x44, dst, src] ∧ moves (.mvp dst src) (-1))

/-! ## Arithmetic -/

/-- `42_arithmetic_logic.md` R221, ADC in every form, at both widths by one formula. Decimal is a state with both `P.D`
and `DECIMAL_ARITH` set, the latter not by default (R222, D16); the spec states no result there, so that `r`, C and V are
then free values (log 21), while all else holds as ever. -/
def Obligations.AdcAddsWithCarry : Prop :=
  ∀ (src : Source) (op : Byte) (i : Instr) (s : State), adcForm src = some (op, i) →
    (encode i).head? = some op ∧ ∃ t r, exec i s = .next t ∧
      let w := s.wA
      let a := takeBits w s.A
      let m := operandRead src w s
      let sum := a.toNat + m.1.toNat + (if s.flag .C then 1 else 0)
      let sgn : Word := match w with | .narrow => 0x0080 | .wide => 0x8000
      AccumulatorGets w r s t ∧ takeBits w r = r ∧ NegativeZero w r t ∧ OnlyFlags [.N, .V, .Z, .C] s t ∧
      t = { s with A := t.A, P := t.P, bus := m.2.bus } ∧
      (Binary s →
        r = BitVec.ofNat 16 (sum % (match w with | .narrow => 256 | .wide => 65536)) ∧
        t.flag .C = decide (sum > (match w with | .narrow => 0xFF | .wide => 0xFFFF)) ∧
        t.flag .V = decide ((a ^^^ m.1) &&& sgn = 0 ∧ (a ^^^ r) &&& sgn ≠ 0))

/-- `42_arithmetic_logic.md` R221, R245 d: the V of a binary ADC is signed overflow: the sum of the two signed `w`-bit
numbers and the carry is no `w`-bit signed number. -/
def Obligations.AdcOverflowIsSigned : Prop :=
  ∀ (src : Source) (op : Byte) (i : Instr) (s t : State), adcForm src = some (op, i) → Binary s → exec i s = .next t →
    let signed : Word → Int := fun v => match s.wA with
      | .narrow => (lowByte v).toInt
      | .wide => v.toInt
    let bound : Int := match s.wA with | .narrow => 128 | .wide => 32768
    let sum := signed s.A + signed (operandRead src s.wA s).1 + (if s.flag .C then 1 else 0)
    (t.flag .V = true ↔ sum < -bound ∨ bound ≤ sum)

/-- `42_arithmetic_logic.md` R223, SBC in every form: the difference minus the borrow, reduced to `w` bits; C is "no
borrow occurred"; V is that of R221 for the complemented operand. Decimal (R222, D16) as for ADC: `r`, C and V are free
values (log 21). -/
def Obligations.SbcSubtractsWithBorrow : Prop :=
  ∀ (src : Source) (op : Byte) (i : Instr) (s : State), sbcForm src = some (op, i) →
    (encode i).head? = some op ∧ ∃ t r, exec i s = .next t ∧
      let w := s.wA
      let a := takeBits w s.A
      let m := operandRead src w s
      let borrow : Int := if s.flag .C then 0 else 1
      let sgn : Word := match w with | .narrow => 0x0080 | .wide => 0x8000
      AccumulatorGets w r s t ∧ takeBits w r = r ∧ NegativeZero w r t ∧ OnlyFlags [.N, .V, .Z, .C] s t ∧
      t = { s with A := t.A, P := t.P, bus := m.2.bus } ∧
      (Binary s →
        r = BitVec.ofInt 16 ((a.toNat - m.1.toNat - borrow) % (match w with | .narrow => 256 | .wide => 65536)) ∧
        t.flag .C = decide ((m.1.toNat : Int) + borrow ≤ a.toNat) ∧
        t.flag .V = decide ((a ^^^ ~~~m.1) &&& sgn = 0 ∧ (a ^^^ r) &&& sgn ≠ 0))

/-- `42_arithmetic_logic.md` R224 to R226, CMP, CPX and CPY in every form: C, Z and N of the difference; no register
and no V changes. That CPX and CPY exist is the spec's general knowledge (D2). -/
def Obligations.ComparesSetCarryZeroNegative : Prop :=
  ∀ (src : Source) (op : Byte) (i : Instr) (s : State),
    (cmpForm src = some (op, i) → Compares i src s.wA (takeBits s.wA s.A) s) ∧
    (cpxForm src = some (op, i) → Compares i src s.wX (takeBits s.wX s.X) s) ∧
    (cpyForm src = some (op, i) → Compares i src s.wX (takeBits s.wX s.Y) s)

/-- `42_arithmetic_logic.md` R227 to R229, AND, ORA and EOR in every form, at width `wA`; that they set N and Z is the
spec's general knowledge. -/
def Obligations.LogicCombinesTheAccumulator : Prop :=
  ∀ (src : Source) (op : Byte) (i : Instr) (s : State),
    let a := takeBits s.wA s.A
    let m := operandRead src s.wA s
    let gives := fun r : Word => ∃ t, exec i s = .next t ∧ AccumulatorGets s.wA r s t ∧ NegativeZero s.wA r t ∧
      OnlyFlags [.N, .Z] s t ∧ t = { s with A := t.A, P := t.P, bus := m.2.bus }
    (andForm src = some (op, i) → (encode i).head? = some op ∧ gives (a &&& m.1)) ∧
    (oraForm src = some (op, i) → (encode i).head? = some op ∧ gives (a ||| m.1)) ∧
    (eorForm src = some (op, i) → (encode i).head? = some op ∧ gives (a ^^^ m.1))

/-- `42_arithmetic_logic.md` R230, BIT in every form: Z of the AND, N and V the top two bits of the operand; the
immediate form writes N and V only where `BIT_IMM_WRITES_NV` is set (the default, D17); `A` is not touched. -/
def Obligations.BitTestsWithoutTouchingA : Prop :=
  ∀ (src : Source) (op : Byte) (i : Instr) (s : State), bitForm src = some (op, i) →
    (encode i).head? = some op ∧ ∃ t, exec i s = .next t ∧
      let m := operandRead src s.wA s
      let copies := match src with
        | .imm _ => s.params.bitImmWritesNV
        | .mem _ => true
      t.flag .Z = decide (takeBits s.wA s.A &&& m.1 = 0) ∧ OnlyFlags [.Z, .N, .V] s t ∧
      t = { s with P := t.P, bus := m.2.bus } ∧
      (copies = false → t.flag .N = s.flag .N ∧ t.flag .V = s.flag .V) ∧
      (copies = true →
        t.flag .N = m.1.getLsbD (match s.wA with | .narrow => 7 | .wide => 15) ∧
        t.flag .V = m.1.getLsbD (match s.wA with | .narrow => 6 | .wide => 14))

/-- `42_arithmetic_logic.md` R231, R232, TSB and TRB in both forms: Z of the AND, the bits of `A` set or cleared in
memory. The instructions are the spec's general knowledge. -/
def Obligations.TestAndSetOrResetBits : Prop :=
  ∀ (m : Mode) (op : Byte) (i : Instr) (s : State), s.mem.wf = true →
    let a := takeBits s.wA s.A
    let zero := fun (v : Word) (t : State) => t.flag .Z = decide (a &&& v = 0)
    (tsbForm m = some (op, i) →
      (encode i).head? = some op ∧ Modifies i (.mem m) s.wA (fun v => v ||| a) [.Z] zero s) ∧
    (trbForm m = some (op, i) →
      (encode i).head? = some op ∧ Modifies i (.mem m) s.wA (fun v => v &&& ~~~a) [.Z] zero s)

/-- `42_arithmetic_logic.md` R233 to R236, ASL, LSR, ROL and ROR in every form: the value moves one bit, C is the bit
shifted off, a rotate lets the old C in at the other end; N and Z are of the result. -/
def Obligations.ShiftsMoveOneBit : Prop :=
  ∀ (target : Target) (op : Byte) (i : Instr) (s : State), s.mem.wf = true →
    let w := s.wA
    let size := match w with | .narrow => 256 | .wide => 65536
    let c := if s.flag .C then 1 else 0
    let left := fun (v : Word) (carryIn : Nat) => BitVec.ofNat 16 ((v.toNat * 2 + carryIn) % size)
    let right := fun (v : Word) (carryIn : Nat) => BitVec.ofNat 16 (v.toNat / 2 + carryIn * (size / 2))
    let leaves := fun (r : Word → Word) (out : Word → Bool) (v : Word) (t : State) =>
      t.flag .C = out v ∧ NegativeZero w (r v) t
    let top := fun v : Word => decide (size / 2 ≤ v.toNat)
    let bottom := fun v : Word => decide (v.toNat % 2 = 1)
    let does := fun (r : Word → Word) (out : Word → Bool) =>
      (encode i).head? = some op ∧ Modifies i target w r [.N, .Z, .C] (leaves r out) s
    (aslForm target = some (op, i) → does (fun v => left v 0) top) ∧
    (lsrForm target = some (op, i) → does (fun v => right v 0) bottom) ∧
    (rolForm target = some (op, i) → does (fun v => left v c) top) ∧
    (rorForm target = some (op, i) → does (fun v => right v c) bottom)

/-- `42_arithmetic_logic.md` R237, R238, INC and DEC in every form: "wraps within the current operand width; updates
Zero/Negative only (never Carry/Overflow)". -/
def Obligations.IncAndDecWrap : Prop :=
  ∀ (target : Target) (op : Byte) (i : Instr) (s : State), s.mem.wf = true →
    let size : Int := match s.wA with | .narrow => 256 | .wide => 65536
    let moved := fun (delta : Int) (v : Word) => BitVec.ofInt 16 ((v.toNat + delta) % size)
    let does := fun delta : Int =>
      (encode i).head? = some op ∧
      Modifies i target s.wA (moved delta) [.N, .Z] (fun v t => NegativeZero s.wA (moved delta v) t) s
    (incForm target = some (op, i) → does 1) ∧ (decForm target = some (op, i) → does (-1))

/-- `42_arithmetic_logic.md` R239 to R242, INX, INY, DEX and DEY: the index register steps by one within `wX` bits;
N and Z, and nothing else. -/
def Obligations.IndexRegistersStep : Prop :=
  ∀ s : State,
    let size : Int := if s.flag .X then 256 else 65536
    let moved := fun (v : Word) (delta : Int) => BitVec.ofInt 16 ((v.toNat + delta) % size)
    let stepsX := fun (i : Instr) (delta : Int) => ∃ t, exec i s = .next t ∧ NegativeZero s.wX (moved s.X delta) t ∧
      OnlyFlags [.N, .Z] s t ∧ t = { s with X := moved s.X delta, P := t.P }
    let stepsY := fun (i : Instr) (delta : Int) => ∃ t, exec i s = .next t ∧ NegativeZero s.wX (moved s.Y delta) t ∧
      OnlyFlags [.N, .Z] s t ∧ t = { s with Y := moved s.Y delta, P := t.P }
    (encode .inx = [0xE8] ∧ stepsX .inx 1) ∧ (encode .dex = [0xCA] ∧ stepsX .dex (-1)) ∧
    (encode .iny = [0xC8] ∧ stepsY .iny 1) ∧ (encode .dey = [0x88] ∧ stepsY .dey (-1))

/-! ## Control transfer (the instructions are the spec's general knowledge, D1, D2) -/

/-- `43_control_transfer.md` R271 to R281: a branch goes to its target exactly when its condition holds, and changes
`PC` alone; BRA and BRL always go. -/
def Obligations.BranchesFollowTheirFlag : Prop :=
  ∀ (r : Byte) (l : Word) (s : State),
    let branches := fun (op : Byte) (i : Instr) (cond : Bool) =>
      encode i = [op, r] ∧ exec i s = .next { s with PC := if cond then branchTarget s.PC r else s.PC }
    branches 0x10 (.bpl r) (!s.flag .N) ∧ branches 0x30 (.bmi r) (s.flag .N) ∧
    branches 0x50 (.bvc r) (!s.flag .V) ∧ branches 0x70 (.bvs r) (s.flag .V) ∧
    branches 0x90 (.bcc r) (!s.flag .C) ∧ branches 0xB0 (.bcs r) (s.flag .C) ∧
    branches 0xD0 (.bne r) (!s.flag .Z) ∧ branches 0xF0 (.beq r) (s.flag .Z) ∧ branches 0x80 (.bra r) true ∧
    (encode (.brl l)).head? = some 0x82 ∧
    exec (.brl l) s = .next { s with PC := BitVec.ofNat 16 (s.PC.toNat + l.toNat) }

/-- `43_control_transfer.md` R282, R283: the five jumps: where the target comes from, the pointer read in bank 0 or
in the program bank, and that only `PC`, or `PBR` and `PC`, change. -/
def Obligations.JumpsLoadTheirTarget : Prop :=
  ∀ (a : Word) (l : Addr) (s : State),
    let place := BitVec.ofNat 16 (a.toNat + s.X.toNat)
    ((encode (.jmpAbs a)).head? = some 0x4C ∧ exec (.jmpAbs a) s = .next { s with PC := a }) ∧
    ((encode (.jmpInd a)).head? = some 0x6C ∧
      exec (.jmpInd a) s = .next { s with PC := wordIn s 0x00 a, bus := s.bus ++ pairReads s 0x00 a 2 }) ∧
    ((encode (.jmpIndX a)).head? = some 0x7C ∧
      exec (.jmpIndX a) s = .next { s with PC := wordIn s s.PBR place, bus := s.bus ++ pairReads s s.PBR place 2 }) ∧
    ((encode (.jmlLong l)).head? = some 0x5C ∧
      exec (.jmlLong l) s = .next { s with PBR := bankOf l, PC := offsetOf l }) ∧
    ((encode (.jmlLongInd a)).head? = some 0xDC ∧
      exec (.jmlLongInd a) s = .next { s with
        PBR := byteIn s 0x00 (a + 2), PC := wordIn s 0x00 a, bus := s.bus ++ pairReads s 0x00 a 3 })

/-- `43_control_transfer.md` R284, R285: JSR and JSL push the address of their own last byte, JSL the program bank
before it, and go to their target; the pointer of JSR `(abs,X)` is read after the push. -/
def Obligations.CallsPushTheReturnAddress : Prop :=
  ∀ (a : Word) (l : Addr) (s : State), s.mem.wf = true →
    let ret := BitVec.ofInt 16 (s.PC.toNat - 1)
    let near := [highByte ret, lowByte ret]
    let far := [s.PBR, highByte ret, lowByte ret]
    let place := BitVec.ofNat 16 (a.toNat + s.X.toNat)
    ((encode (.jsrAbs a)).head? = some 0x20 ∧ ∃ t, exec (.jsrAbs a) s = .next t ∧ Pushed near s t ∧
      t = { s with S := t.S, mem := t.mem, PC := a, bus := s.bus ++ pushWrites s near }) ∧
    ((encode (.jsrIndX a)).head? = some 0xFC ∧ ∃ t, exec (.jsrIndX a) s = .next t ∧ Pushed near s t ∧
      t = { s with
            S := t.S, mem := t.mem, PC := wordIn t s.PBR place,
            bus := s.bus ++ pushWrites s near ++ pairReads t s.PBR place 2 }) ∧
    ((encode (.jsl l)).head? = some 0x22 ∧ ∃ t, exec (.jsl l) s = .next t ∧ Pushed far s t ∧
      t = { s with
            S := t.S, mem := t.mem, PBR := bankOf l, PC := offsetOf l, bus := s.bus ++ pushWrites s far })

/-- `43_control_transfer.md` R286, R287: RTS and RTL pull the return address, add one in 16 bits, and RTL pulls the
bank after it. -/
def Obligations.ReturnsPullTheReturnAddress : Prop :=
  ∀ s : State,
    (encode .rts = [0x60] ∧ exec .rts s = .next { s with
      PC := pulledWord s 1 + 1, S := pullSlot s 2, bus := s.bus ++ pullReads s 2 }) ∧
    (encode .rtl = [0x6B] ∧ exec .rtl s = .next { s with
      PC := pulledWord s 1 + 1, PBR := pulledByte s 3, S := pullSlot s 3, bus := s.bus ++ pullReads s 3 })

/-- `43_control_transfer.md` R284 to R288: a return matches its call: RTS after JSR, RTL after JSL give back the
program counter after the call, the program bank and `S`, in both modes. -/
def Obligations.ReturnUndoesCall : Prop :=
  ∀ (call ret : Instr) (s : State),
    ((∃ a, (call = .jsrAbs a ∨ call = .jsrIndX a) ∧ ret = .rts) ∨ (∃ l, call = .jsl l ∧ ret = .rtl)) → s.Inv →
    ∃ t u, exec call s = .next t ∧ exec ret t = .next u ∧
      u = { s with mem := t.mem, bus := u.bus }

/-! ## Modes, widths, flags -/

/-- `44_mode_and_flags.md` R310 with `10_state.md` R35, R36: XCE exchanges `P.C` and `E`. Into native mode nothing
else changes; into emulation mode `P.M` and `P.X` are set, `X` and `Y` truncated and `S` clamped to page 1, and `A`
is kept. -/
def Obligations.XceExchangesCarryAndMode : Prop :=
  ∀ s : State, encode .xce = [0xFB] ∧ ∃ t, exec .xce s = .next t ∧ t.E = s.flag .C ∧ t.flag .C = s.E ∧
    (s.flag .C = false → OnlyFlags [.C] s t ∧ t = { s with P := t.P, E := false }) ∧
    (s.flag .C = true → OnlyFlags [.C, .M, .X] s t ∧ t.flag .M = true ∧ t.flag .X = true ∧
      t = { s with
            P := t.P, E := true, X := s.X &&& 0x00FF, Y := s.Y &&& 0x00FF, S := 0x0100 ||| (s.S &&& 0x00FF) })

/-- `44_mode_and_flags.md` R310, the source's law: two XCE in succession restore the original carry and mode, and,
once the invariants hold, whatever entering emulation mode did not force. -/
def Obligations.XceTwiceRestoresCarryAndMode : Prop :=
  ∀ s : State, s.Inv → ∃ t u, exec .xce s = .next t ∧ exec .xce t = .next u ∧ u.E = s.E ∧ u.flag .C = s.flag .C ∧
    u.A = s.A ∧ (s.E = true ∨ s.flag .C = false → u = s)

/-- `44_mode_and_flags.md` R311, R312 with `10_state.md` R35: REP clears and SEP sets the bits of the mask, through
`SetP`: in emulation mode `P.M` and `P.X` stay set, and an index width that is narrow afterwards truncates `X` and
`Y` at once. `A` is kept. -/
def Obligations.RepAndSepMaskTheStatus : Prop :=
  ∀ (v : Byte) (s : State),
    let writes := fun (i : Instr) (p : Byte) =>
      exec i s = .next { s with P := p, X := truncated p s.X, Y := truncated p s.Y }
    writes (.rep v) (forced s.E (s.P &&& ~~~v)) ∧ writes (.sep v) (forced s.E (s.P ||| v))

/-- `44_mode_and_flags.md` R313 to R320: each flag instruction writes one bit of `P`, at the position of
`10_state.md` R30 (D5), and NOP nothing. -/
def Obligations.FlagInstructionsWriteOneBit : Prop :=
  ∀ s : State,
    let writes := fun (op : Byte) (i : Instr) (p : Byte) => encode i = [op] ∧ exec i s = .next { s with P := p }
    writes 0x18 .clc (s.P &&& 0xFE) ∧ writes 0x38 .sec (s.P ||| 0x01) ∧
    writes 0x58 .cli (s.P &&& 0xFB) ∧ writes 0x78 .sei (s.P ||| 0x04) ∧
    writes 0xD8 .cld (s.P &&& 0xF7) ∧ writes 0xF8 .sed (s.P ||| 0x08) ∧
    writes 0xB8 .clv (s.P &&& 0xBF) ∧ writes 0xEA .nop s.P

/-- `44_mode_and_flags.md` R322: XBA exchanges the bytes of `A` whatever `P.M` is; N and Z are of the new low byte.
The instruction is the spec's general knowledge. -/
def Obligations.XbaExchangesTheBytesOfA : Prop :=
  ∀ s : State, encode .xba = [0xEB] ∧ ∃ t, exec .xba s = .next t ∧
    lowByte t.A = highByte s.A ∧ highByte t.A = lowByte s.A ∧
    t.flag .Z = decide (highByte s.A = 0) ∧ t.flag .N = (highByte s.A).getLsbD 7 ∧ OnlyFlags [.N, .Z] s t ∧
    t = { s with A := t.A, P := t.P }
end

