-- ==== Sys2Proof/Laws/Flags.lean ====
section
/-! SUPPORT. What each flag of a status byte is after the functions of `Machine/Flags.lean`, and the arithmetic of widths. -/

namespace Sys2Proof.Machine

/-! ## One flag -/

/-- Writing a flag changes that flag and no other. -/
@[simp] theorem getFlag_putFlag (f g : Flag) (b : Bool) (p : Byte) :
    getFlag f (putFlag g b p) = if f = g then b else getFlag f p := by
  cases b <;> cases f <;> cases g <;> simp [getFlag, putFlag, Flag.mask, Flag.bit]

/-- A status byte is what its eight flags are. -/
theorem flags_ext {p q : Byte} (h : ∀ f, getFlag f p = getFlag f q) : p = q := by
  refine BitVec.eq_of_getLsbD_eq fun i hi => ?_
  have e : i = 0 ∨ i = 1 ∨ i = 2 ∨ i = 3 ∨ i = 4 ∨ i = 5 ∨ i = 6 ∨ i = 7 := by omega
  rcases e with rfl | rfl | rfl | rfl | rfl | rfl | rfl | rfl
  exacts [h .C, h .Z, h .I, h .D, h .X, h .M, h .V, h .N]

@[simp] theorem getFlag_flagsNZ (f : Flag) (w : Width) (v : Word) (p : Byte) :
    getFlag f (flagsNZ w v p) = if f = .N then signBit w v else if f = .Z then decide (v = 0) else getFlag f p := by
  rw [flagsNZ, getFlag_putFlag, getFlag_putFlag]
  rfl

@[simp] theorem getFlag_sumFlags (f : Flag) (d b : Bool) (w : Width) (a m : Word) (c : Bool) (p : Byte) :
    getFlag f (sumFlags d b w a m c p) =
      if f = .N then signBit w (sumResult d b w a m c) else if f = .Z then decide (sumResult d b w a m c = 0)
      else if f = .V then sumOverflow d b w a m c else if f = .C then sumCarry d b w a m c else getFlag f p := by
  rw [sumFlags, getFlag_flagsNZ, getFlag_putFlag, getFlag_putFlag]

@[simp] theorem getFlag_compareFlags (f : Flag) (w : Width) (a m : Word) (p : Byte) :
    getFlag f (compareFlags w a m p) =
      if f = .N then signBit w (addResult w a (complement w m) true)
      else if f = .Z then decide (addResult w a (complement w m) true = 0)
      else if f = .C then addCarry w a (complement w m) true else getFlag f p := by
  rw [compareFlags, getFlag_flagsNZ, getFlag_putFlag]

@[simp] theorem getFlag_testFlags (f : Flag) (a m : Word) (p : Byte) :
    getFlag f (testFlags a m p) = if f = .Z then decide (a &&& m = 0) else getFlag f p := by
  rw [testFlags, getFlag_putFlag]
  rfl

@[simp] theorem getFlag_bitFlags (f : Flag) (w : Width) (a m : Word) (p : Byte) :
    getFlag f (bitFlags true w a m p) =
      if f = .V then m.getLsbD (widthBits w - 2) else if f = .N then signBit w m
      else if f = .Z then decide (a &&& m = 0) else getFlag f p := by
  simp [bitFlags]

@[simp] theorem getFlag_bitFlags_onlyZ (f : Flag) (w : Width) (a m : Word) (p : Byte) :
    getFlag f (bitFlags false w a m p) = if f = .Z then decide (a &&& m = 0) else getFlag f p := getFlag_testFlags f a m p

@[simp] theorem getFlag_shiftFlags (f : Flag) (w : Width) (c : Bool) (r : Word) (p : Byte) :
    getFlag f (shiftFlags w c r p) =
      if f = .N then signBit w r else if f = .Z then decide (r = 0) else if f = .C then c else getFlag f p := by
  rw [shiftFlags, getFlag_flagsNZ, getFlag_putFlag]

/-! ## Widths -/

@[simp] theorem takeBits_wide (v : Word) : takeBits .wide v = v := BitVec.and_allOnes

@[simp] theorem takeBits_takeBits (w : Width) (v : Word) : takeBits w (takeBits w v) = takeBits w v := by
  simp [takeBits, BitVec.and_assoc]

theorem takeBits_toNat (w : Width) (v : Word) : (takeBits w v).toNat = v.toNat % 2 ^ widthBits w := by
  cases w
  · simp only [takeBits, widthMask, widthBits, BitVec.toNat_and]
    exact Nat.and_two_pow_sub_one_eq_mod v.toNat 8
  · rw [takeBits_wide]
    exact (Nat.mod_eq_of_lt v.isLt).symm

theorem takeBits_eq_self {w : Width} {v : Word} (h : v.toNat < 2 ^ widthBits w) : takeBits w v = v :=
  BitVec.eq_of_toNat_eq (by rw [takeBits_toNat, Nat.mod_eq_of_lt h])

theorem takeBits_lt (w : Width) (v : Word) : (takeBits w v).toNat < 2 ^ widthBits w := by
  rw [takeBits_toNat]
  exact Nat.mod_lt _ (Nat.two_pow_pos _)

theorem two_pow_widthBits_le (w : Width) : 2 ^ widthBits w ≤ 2 ^ 16 := by cases w <;> decide

theorem reduce_toNat (w : Width) (n : Nat) : (reduce w n).toNat = n % 2 ^ widthBits w := by
  have h := Nat.mod_lt n (Nat.two_pow_pos (widthBits w))
  have := two_pow_widthBits_le w
  simp only [reduce, BitVec.toNat_ofNat]
  exact Nat.mod_eq_of_lt (by omega)

@[simp] theorem takeBits_reduce (w : Width) (n : Nat) : takeBits w (reduce w n) = reduce w n :=
  takeBits_eq_self (by rw [reduce_toNat]; exact Nat.mod_lt _ (Nat.two_pow_pos _))

/-- The result of ADC or SBC has no bit above its width, decimal or not. -/
@[simp] theorem takeBits_sumResult (d b : Bool) (w : Width) (a m : Word) (c : Bool) :
    takeBits w (sumResult d b w a m c) = sumResult d b w a m c := by
  cases d <;> simp [sumResult, addResult]

@[simp] theorem sumResult_binary (b : Bool) (w : Width) (a m : Word) (c : Bool) :
    sumResult false b w a m c = addResult w a (addend b w m) c := rfl

@[simp] theorem sumCarry_binary (b : Bool) (w : Width) (a m : Word) (c : Bool) :
    sumCarry false b w a m c = addCarry w a (addend b w m) c := rfl

@[simp] theorem sumOverflow_binary (b : Bool) (w : Width) (a m : Word) (c : Bool) :
    sumOverflow false b w a m c = addOverflow w a (addend b w m) c := rfl

@[simp] theorem addend_add (w : Width) (m : Word) : addend false w m = m := rfl

@[simp] theorem addend_subtract (w : Width) (m : Word) : addend true w m = complement w m := rfl

theorem zeroExtend_toNat (v : Byte) : (zeroExtend v).toNat = v.toNat := by
  have := v.isLt
  simp only [zeroExtend, BitVec.toNat_setWidth]
  omega

@[simp] theorem takeBits_zeroExtend (w : Width) (v : Byte) : takeBits w (zeroExtend v) = zeroExtend v :=
  takeBits_eq_self (by have := v.isLt; rw [zeroExtend_toNat]; cases w <;> simp [widthBits] <;> omega)

@[simp] theorem takeBits_immValue (w : Width) (v : Imm) : takeBits w (immValue w v) = immValue w v := by
  cases v <;> simp [immValue]

/-! ## Bytes of a word, as numbers -/

theorem joinBytes_toNat (hi lo : Byte) : (joinBytes hi lo).toNat = hi.toNat * 256 + lo.toNat := by
  have : (joinBytes hi lo).toNat = hi.toNat <<< 8 ||| lo.toNat := BitVec.toNat_append hi lo
  rw [this, ← Nat.shiftLeft_add_eq_or_of_lt lo.isLt, Nat.shiftLeft_eq]

theorem lowByte_toNat (v : Word) : (lowByte v).toNat = v.toNat % 256 := BitVec.toNat_setWidth 8 v

theorem highByte_toNat (v : Word) : (highByte v).toNat = v.toNat / 256 := by
  have := v.isLt
  simp only [highByte, BitVec.toNat_setWidth, BitVec.toNat_ushiftRight, Nat.shiftRight_eq_div_pow]
  omega

@[simp] theorem lowByte_joinBytes (hi lo : Byte) : lowByte (joinBytes hi lo) = lo :=
  BitVec.eq_of_toNat_eq (by have := lo.isLt; rw [lowByte_toNat, joinBytes_toNat]; omega)

@[simp] theorem highByte_joinBytes (hi lo : Byte) : highByte (joinBytes hi lo) = hi :=
  BitVec.eq_of_toNat_eq (by have := lo.isLt; rw [highByte_toNat, joinBytes_toNat]; omega)

@[simp] theorem joinBytes_high_low (v : Word) : joinBytes (highByte v) (lowByte v) = v :=
  BitVec.eq_of_toNat_eq (by rw [joinBytes_toNat, highByte_toNat, lowByte_toNat]; omega)

@[simp] theorem lowByte_zeroExtend (v : Byte) : lowByte (zeroExtend v) = v :=
  BitVec.eq_of_toNat_eq (by have := v.isLt; rw [lowByte_toNat, zeroExtend_toNat]; omega)

@[simp] theorem lowByte_takeBits (w : Width) (v : Word) : lowByte (takeBits w v) = lowByte v :=
  BitVec.eq_of_toNat_eq (by rw [lowByte_toNat, lowByte_toNat, takeBits_toNat]; cases w <;> simp only [widthBits] <;> omega)

/-- A narrow value is its low byte. -/
theorem zeroExtend_lowByte (v : Word) : zeroExtend (lowByte v) = takeBits .narrow v :=
  BitVec.eq_of_toNat_eq (by rw [takeBits_toNat, zeroExtend_toNat, lowByte_toNat]; rfl)

@[simp] theorem highByte_takeBits_narrow (v : Word) : highByte (takeBits .narrow v) = 0 :=
  BitVec.eq_of_toNat_eq (by
    have : v.toNat % 2 ^ widthBits .narrow < 256 := Nat.mod_lt _ (Nat.two_pow_pos _)
    rw [highByte_toNat, takeBits_toNat]
    simpa using this)

end Sys2Proof.Machine
end

