-- ==== Sys2Proof/Laws/Decode.lean ====
section
/-! SUPPORT. Small laws of the decoder and the encoder: the bytes of an operand and the operand they join to. -/

namespace Sys2Proof.Machine

theorem joinAddr_toNat (b2 b1 b0 : Byte) :
    (joinAddr b2 b1 b0).toNat = b2.toNat * 65536 + b1.toNat * 256 + b0.toNat := by
  have : (joinAddr b2 b1 b0).toNat = b2.toNat <<< 16 ||| (joinBytes b1 b0).toNat := BitVec.toNat_append b2 _
  rw [this, ← Nat.shiftLeft_add_eq_or_of_lt (joinBytes b1 b0).isLt, Nat.shiftLeft_eq, joinBytes_toNat]
  omega

theorem offsetOf_toNat (a : Addr) : (offsetOf a).toNat = a.toNat % 65536 := BitVec.toNat_setWidth 16 a

theorem bankOf_toNat (a : Addr) : (bankOf a).toNat = a.toNat / 65536 := by
  have := a.isLt
  simp only [bankOf, BitVec.toNat_setWidth, BitVec.toNat_ushiftRight, Nat.shiftRight_eq_div_pow]
  omega

/-- A flat address is its bank and the two bytes of its offset (`30_encoding.md` R93). -/
@[simp] theorem joinAddr_parts (a : Addr) :
    joinAddr (bankOf a) (highByte (offsetOf a)) (lowByte (offsetOf a)) = a :=
  BitVec.eq_of_toNat_eq (by
    rw [joinAddr_toNat, bankOf_toNat, highByte_toNat, lowByte_toNat, offsetOf_toNat]
    omega)

@[simp] theorem bankOf_joinAddr (b2 b1 b0 : Byte) : bankOf (joinAddr b2 b1 b0) = b2 :=
  BitVec.eq_of_toNat_eq (by
    have := b1.isLt
    have := b0.isLt
    rw [bankOf_toNat, joinAddr_toNat]
    omega)

@[simp] theorem offsetOf_joinAddr (b2 b1 b0 : Byte) : offsetOf (joinAddr b2 b1 b0) = joinBytes b1 b0 :=
  BitVec.eq_of_toNat_eq (by
    have := b1.isLt
    have := b0.isLt
    rw [offsetOf_toNat, joinAddr_toNat, joinBytes_toNat]
    omega)

end Sys2Proof.Machine
end

