-- ==== Sys2Proof/Laws/Memory.lean ====
section
/-! SUPPORT. The laws of memory: a read gives the latest write, a write changes one byte, and every write keeps the
canonical form. -/

namespace Sys2Proof.Machine

theorem Memory.read_nil (k : Nat) : Memory.read [] k = Config.unlistedByte := rfl

theorem Memory.read_head (a : Nat) (v : Byte) (m : Memory) (k : Nat) :
    Memory.read ((a, v) :: m) k = if k = a then v else m.read k := rfl

theorem Memory.read_cons_self {m : Memory} {k : Nat} (v : Byte) (h : m.read k = Config.unlistedByte) :
    (Memory.cons k v m).read k = v := by
  unfold Memory.cons
  split
  · rename_i e; rw [h, e]
  · simp [Memory.read_head]

theorem Memory.read_cons_other {m : Memory} {k j : Nat} (v : Byte) (h : j ≠ k) :
    (Memory.cons k v m).read j = m.read j := by
  unfold Memory.cons
  split
  · rfl
  · simp [Memory.read_head, h]

/-- A write leaves every other byte alone, in any memory. -/
theorem Memory.read_write_other (m : Memory) {k j : Nat} (v : Byte) (h : j ≠ k) : (m.write k v).read j = m.read j := by
  induction m with
  | nil => exact Memory.read_cons_other v h
  | cons c m ih =>
    obtain ⟨a, b⟩ := c
    simp only [Memory.write]
    split
    · exact Memory.read_cons_other v h
    · split
      · rename_i e
        rw [Memory.read_cons_other v h, Memory.read_head, if_neg (e ▸ h)]
      · simp only [Memory.read_head, ih]

theorem Memory.wfFrom_head (lo a : Nat) (v : Byte) (m : Memory) :
    Memory.wfFrom lo ((a, v) :: m) = true ↔
      lo ≤ a ∧ a < 2 ^ 24 ∧ v ≠ Config.unlistedByte ∧ Memory.wfFrom (a + 1) m = true := by
  simp [Memory.wfFrom, and_assoc]

/-- Below its lower bound a canonical memory lists nothing. -/
theorem Memory.read_below {m : Memory} {lo k : Nat} (w : Memory.wfFrom lo m = true) (h : k < lo) :
    m.read k = Config.unlistedByte := by
  induction m generalizing lo with
  | nil => rfl
  | cons c m ih =>
    obtain ⟨a, b⟩ := c
    obtain ⟨h1, -, -, h4⟩ := (Memory.wfFrom_head lo a b m).mp w
    rw [Memory.read_head, if_neg (by omega)]
    exact ih h4 (by omega)

theorem Memory.wfFrom_weaken {m : Memory} {lo lo' : Nat} (w : Memory.wfFrom lo m = true) (h : lo' ≤ lo) :
    Memory.wfFrom lo' m = true := by
  cases m with
  | nil => rfl
  | cons c m =>
    obtain ⟨a, b⟩ := c
    obtain ⟨h1, h2, h3, h4⟩ := (Memory.wfFrom_head lo a b m).mp w
    exact (Memory.wfFrom_head lo' a b m).mpr ⟨by omega, h2, h3, h4⟩

/-- Reading back what was written. -/
theorem Memory.read_write_same {m : Memory} {lo : Nat} (w : Memory.wfFrom lo m = true) (k : Nat) (v : Byte) :
    (m.write k v).read k = v := by
  induction m generalizing lo with
  | nil => exact Memory.read_cons_self v rfl
  | cons c m ih =>
    obtain ⟨a, b⟩ := c
    obtain ⟨h1, h2, h3, h4⟩ := (Memory.wfFrom_head lo a b m).mp w
    simp only [Memory.write]
    split
    · rename_i h
      exact Memory.read_cons_self v (Memory.read_below (lo := a) ((Memory.wfFrom_head a a b m).mpr ⟨le_refl a, h2, h3, h4⟩) h)
    · split
      · rename_i e
        exact Memory.read_cons_self v (Memory.read_below h4 (by omega))
      · rename_i e
        rw [Memory.read_head, if_neg e, ih h4]

theorem Memory.wfFrom_cons {m : Memory} {lo k : Nat} (v : Byte) (w : Memory.wfFrom (k + 1) m = true) (h : lo ≤ k)
    (hk : k < 2 ^ 24) : Memory.wfFrom lo (Memory.cons k v m) = true := by
  unfold Memory.cons
  split
  · exact Memory.wfFrom_weaken w (by omega)
  · rename_i e
    exact (Memory.wfFrom_head lo k v m).mpr ⟨h, hk, e, w⟩

theorem Memory.wfFrom_write {m : Memory} {lo k : Nat} (v : Byte) (w : Memory.wfFrom lo m = true) (h : lo ≤ k)
    (hk : k < 2 ^ 24) : Memory.wfFrom lo (m.write k v) = true := by
  induction m generalizing lo with
  | nil => exact Memory.wfFrom_cons v rfl h hk
  | cons c m ih =>
    obtain ⟨a, b⟩ := c
    obtain ⟨h1, h2, h3, h4⟩ := (Memory.wfFrom_head lo a b m).mp w
    simp only [Memory.write]
    split
    · exact Memory.wfFrom_cons v ((Memory.wfFrom_head (k + 1) a b m).mpr ⟨by omega, h2, h3, h4⟩) h hk
    · split
      · rename_i e
        exact Memory.wfFrom_cons v (e ▸ h4) h hk
      · exact (Memory.wfFrom_head lo a b _).mpr ⟨h1, h2, h3, ih h4 (by omega)⟩

/-- A write inside the address space keeps the canonical form. -/
theorem Memory.wf_write {m : Memory} {k : Nat} (v : Byte) (w : m.wf = true) (hk : k < 2 ^ 24) :
    (m.write k v).wf = true :=
  Memory.wfFrom_write v w (Nat.zero_le k) hk

/-- Reading back what was written, in a canonical memory. -/
theorem Memory.read_write {m : Memory} (w : m.wf = true) (k : Nat) (v : Byte) : (m.write k v).read k = v :=
  Memory.read_write_same w k v

end Sys2Proof.Machine
end

