-- ==== Sys2Proof/Laws/State.lean ====
section
/-! SUPPORT. Each field after each update of one field: the lemmas by which every later proof looks through an update
without unfolding it. -/

namespace Sys2Proof.Machine

/-! ## After `setA` -/

section
variable (s : State) (v : Word)

@[simp] theorem State.setA_A : (s.setA v).A = v := rfl
@[simp] theorem State.setA_X : (s.setA v).X = s.X := rfl
@[simp] theorem State.setA_Y : (s.setA v).Y = s.Y := rfl
@[simp] theorem State.setA_S : (s.setA v).S = s.S := rfl
@[simp] theorem State.setA_D : (s.setA v).D = s.D := rfl
@[simp] theorem State.setA_DB : (s.setA v).DB = s.DB := rfl
@[simp] theorem State.setA_PBR : (s.setA v).PBR = s.PBR := rfl
@[simp] theorem State.setA_PC : (s.setA v).PC = s.PC := rfl
@[simp] theorem State.setA_P : (s.setA v).P = s.P := rfl
@[simp] theorem State.setA_E : (s.setA v).E = s.E := rfl
@[simp] theorem State.setA_run : (s.setA v).run = s.run := rfl
@[simp] theorem State.setA_mem : (s.setA v).mem = s.mem := rfl
@[simp] theorem State.setA_live : (s.setA v).live = s.live := rfl
@[simp] theorem State.setA_inputs : (s.setA v).inputs = s.inputs := rfl
@[simp] theorem State.setA_out : (s.setA v).out = s.out := rfl
@[simp] theorem State.setA_bus : (s.setA v).bus = s.bus := rfl
@[simp] theorem State.setA_params : (s.setA v).params = s.params := rfl

end

/-! ## After `setX` -/

section
variable (s : State) (v : Word)

@[simp] theorem State.setX_A : (s.setX v).A = s.A := rfl
@[simp] theorem State.setX_X : (s.setX v).X = v := rfl
@[simp] theorem State.setX_Y : (s.setX v).Y = s.Y := rfl
@[simp] theorem State.setX_S : (s.setX v).S = s.S := rfl
@[simp] theorem State.setX_D : (s.setX v).D = s.D := rfl
@[simp] theorem State.setX_DB : (s.setX v).DB = s.DB := rfl
@[simp] theorem State.setX_PBR : (s.setX v).PBR = s.PBR := rfl
@[simp] theorem State.setX_PC : (s.setX v).PC = s.PC := rfl
@[simp] theorem State.setX_P : (s.setX v).P = s.P := rfl
@[simp] theorem State.setX_E : (s.setX v).E = s.E := rfl
@[simp] theorem State.setX_run : (s.setX v).run = s.run := rfl
@[simp] theorem State.setX_mem : (s.setX v).mem = s.mem := rfl
@[simp] theorem State.setX_live : (s.setX v).live = s.live := rfl
@[simp] theorem State.setX_inputs : (s.setX v).inputs = s.inputs := rfl
@[simp] theorem State.setX_out : (s.setX v).out = s.out := rfl
@[simp] theorem State.setX_bus : (s.setX v).bus = s.bus := rfl
@[simp] theorem State.setX_params : (s.setX v).params = s.params := rfl

end

/-! ## After `setY` -/

section
variable (s : State) (v : Word)

@[simp] theorem State.setY_A : (s.setY v).A = s.A := rfl
@[simp] theorem State.setY_X : (s.setY v).X = s.X := rfl
@[simp] theorem State.setY_Y : (s.setY v).Y = v := rfl
@[simp] theorem State.setY_S : (s.setY v).S = s.S := rfl
@[simp] theorem State.setY_D : (s.setY v).D = s.D := rfl
@[simp] theorem State.setY_DB : (s.setY v).DB = s.DB := rfl
@[simp] theorem State.setY_PBR : (s.setY v).PBR = s.PBR := rfl
@[simp] theorem State.setY_PC : (s.setY v).PC = s.PC := rfl
@[simp] theorem State.setY_P : (s.setY v).P = s.P := rfl
@[simp] theorem State.setY_E : (s.setY v).E = s.E := rfl
@[simp] theorem State.setY_run : (s.setY v).run = s.run := rfl
@[simp] theorem State.setY_mem : (s.setY v).mem = s.mem := rfl
@[simp] theorem State.setY_live : (s.setY v).live = s.live := rfl
@[simp] theorem State.setY_inputs : (s.setY v).inputs = s.inputs := rfl
@[simp] theorem State.setY_out : (s.setY v).out = s.out := rfl
@[simp] theorem State.setY_bus : (s.setY v).bus = s.bus := rfl
@[simp] theorem State.setY_params : (s.setY v).params = s.params := rfl

end

/-! ## After `setS` -/

section
variable (s : State) (v : Word)

@[simp] theorem State.setS_A : (s.setS v).A = s.A := rfl
@[simp] theorem State.setS_X : (s.setS v).X = s.X := rfl
@[simp] theorem State.setS_Y : (s.setS v).Y = s.Y := rfl
@[simp] theorem State.setS_S : (s.setS v).S = v := rfl
@[simp] theorem State.setS_D : (s.setS v).D = s.D := rfl
@[simp] theorem State.setS_DB : (s.setS v).DB = s.DB := rfl
@[simp] theorem State.setS_PBR : (s.setS v).PBR = s.PBR := rfl
@[simp] theorem State.setS_PC : (s.setS v).PC = s.PC := rfl
@[simp] theorem State.setS_P : (s.setS v).P = s.P := rfl
@[simp] theorem State.setS_E : (s.setS v).E = s.E := rfl
@[simp] theorem State.setS_run : (s.setS v).run = s.run := rfl
@[simp] theorem State.setS_mem : (s.setS v).mem = s.mem := rfl
@[simp] theorem State.setS_live : (s.setS v).live = s.live := rfl
@[simp] theorem State.setS_inputs : (s.setS v).inputs = s.inputs := rfl
@[simp] theorem State.setS_out : (s.setS v).out = s.out := rfl
@[simp] theorem State.setS_bus : (s.setS v).bus = s.bus := rfl
@[simp] theorem State.setS_params : (s.setS v).params = s.params := rfl

end

/-! ## After `setD` -/

section
variable (s : State) (v : Word)

@[simp] theorem State.setD_A : (s.setD v).A = s.A := rfl
@[simp] theorem State.setD_X : (s.setD v).X = s.X := rfl
@[simp] theorem State.setD_Y : (s.setD v).Y = s.Y := rfl
@[simp] theorem State.setD_S : (s.setD v).S = s.S := rfl
@[simp] theorem State.setD_D : (s.setD v).D = v := rfl
@[simp] theorem State.setD_DB : (s.setD v).DB = s.DB := rfl
@[simp] theorem State.setD_PBR : (s.setD v).PBR = s.PBR := rfl
@[simp] theorem State.setD_PC : (s.setD v).PC = s.PC := rfl
@[simp] theorem State.setD_P : (s.setD v).P = s.P := rfl
@[simp] theorem State.setD_E : (s.setD v).E = s.E := rfl
@[simp] theorem State.setD_run : (s.setD v).run = s.run := rfl
@[simp] theorem State.setD_mem : (s.setD v).mem = s.mem := rfl
@[simp] theorem State.setD_live : (s.setD v).live = s.live := rfl
@[simp] theorem State.setD_inputs : (s.setD v).inputs = s.inputs := rfl
@[simp] theorem State.setD_out : (s.setD v).out = s.out := rfl
@[simp] theorem State.setD_bus : (s.setD v).bus = s.bus := rfl
@[simp] theorem State.setD_params : (s.setD v).params = s.params := rfl

end

/-! ## After `setDB` -/

section
variable (s : State) (v : Byte)

@[simp] theorem State.setDB_A : (s.setDB v).A = s.A := rfl
@[simp] theorem State.setDB_X : (s.setDB v).X = s.X := rfl
@[simp] theorem State.setDB_Y : (s.setDB v).Y = s.Y := rfl
@[simp] theorem State.setDB_S : (s.setDB v).S = s.S := rfl
@[simp] theorem State.setDB_D : (s.setDB v).D = s.D := rfl
@[simp] theorem State.setDB_DB : (s.setDB v).DB = v := rfl
@[simp] theorem State.setDB_PBR : (s.setDB v).PBR = s.PBR := rfl
@[simp] theorem State.setDB_PC : (s.setDB v).PC = s.PC := rfl
@[simp] theorem State.setDB_P : (s.setDB v).P = s.P := rfl
@[simp] theorem State.setDB_E : (s.setDB v).E = s.E := rfl
@[simp] theorem State.setDB_run : (s.setDB v).run = s.run := rfl
@[simp] theorem State.setDB_mem : (s.setDB v).mem = s.mem := rfl
@[simp] theorem State.setDB_live : (s.setDB v).live = s.live := rfl
@[simp] theorem State.setDB_inputs : (s.setDB v).inputs = s.inputs := rfl
@[simp] theorem State.setDB_out : (s.setDB v).out = s.out := rfl
@[simp] theorem State.setDB_bus : (s.setDB v).bus = s.bus := rfl
@[simp] theorem State.setDB_params : (s.setDB v).params = s.params := rfl

end

/-! ## After `setPBR` -/

section
variable (s : State) (v : Byte)

@[simp] theorem State.setPBR_A : (s.setPBR v).A = s.A := rfl
@[simp] theorem State.setPBR_X : (s.setPBR v).X = s.X := rfl
@[simp] theorem State.setPBR_Y : (s.setPBR v).Y = s.Y := rfl
@[simp] theorem State.setPBR_S : (s.setPBR v).S = s.S := rfl
@[simp] theorem State.setPBR_D : (s.setPBR v).D = s.D := rfl
@[simp] theorem State.setPBR_DB : (s.setPBR v).DB = s.DB := rfl
@[simp] theorem State.setPBR_PBR : (s.setPBR v).PBR = v := rfl
@[simp] theorem State.setPBR_PC : (s.setPBR v).PC = s.PC := rfl
@[simp] theorem State.setPBR_P : (s.setPBR v).P = s.P := rfl
@[simp] theorem State.setPBR_E : (s.setPBR v).E = s.E := rfl
@[simp] theorem State.setPBR_run : (s.setPBR v).run = s.run := rfl
@[simp] theorem State.setPBR_mem : (s.setPBR v).mem = s.mem := rfl
@[simp] theorem State.setPBR_live : (s.setPBR v).live = s.live := rfl
@[simp] theorem State.setPBR_inputs : (s.setPBR v).inputs = s.inputs := rfl
@[simp] theorem State.setPBR_out : (s.setPBR v).out = s.out := rfl
@[simp] theorem State.setPBR_bus : (s.setPBR v).bus = s.bus := rfl
@[simp] theorem State.setPBR_params : (s.setPBR v).params = s.params := rfl

end

/-! ## After `setPC` -/

section
variable (s : State) (v : Word)

@[simp] theorem State.setPC_A : (s.setPC v).A = s.A := rfl
@[simp] theorem State.setPC_X : (s.setPC v).X = s.X := rfl
@[simp] theorem State.setPC_Y : (s.setPC v).Y = s.Y := rfl
@[simp] theorem State.setPC_S : (s.setPC v).S = s.S := rfl
@[simp] theorem State.setPC_D : (s.setPC v).D = s.D := rfl
@[simp] theorem State.setPC_DB : (s.setPC v).DB = s.DB := rfl
@[simp] theorem State.setPC_PBR : (s.setPC v).PBR = s.PBR := rfl
@[simp] theorem State.setPC_PC : (s.setPC v).PC = v := rfl
@[simp] theorem State.setPC_P : (s.setPC v).P = s.P := rfl
@[simp] theorem State.setPC_E : (s.setPC v).E = s.E := rfl
@[simp] theorem State.setPC_run : (s.setPC v).run = s.run := rfl
@[simp] theorem State.setPC_mem : (s.setPC v).mem = s.mem := rfl
@[simp] theorem State.setPC_live : (s.setPC v).live = s.live := rfl
@[simp] theorem State.setPC_inputs : (s.setPC v).inputs = s.inputs := rfl
@[simp] theorem State.setPC_out : (s.setPC v).out = s.out := rfl
@[simp] theorem State.setPC_bus : (s.setPC v).bus = s.bus := rfl
@[simp] theorem State.setPC_params : (s.setPC v).params = s.params := rfl

end

/-! ## After `setP` -/

section
variable (s : State) (v : Byte)

@[simp] theorem State.setP_A : (s.setP v).A = s.A := rfl
@[simp] theorem State.setP_X : (s.setP v).X = s.X := rfl
@[simp] theorem State.setP_Y : (s.setP v).Y = s.Y := rfl
@[simp] theorem State.setP_S : (s.setP v).S = s.S := rfl
@[simp] theorem State.setP_D : (s.setP v).D = s.D := rfl
@[simp] theorem State.setP_DB : (s.setP v).DB = s.DB := rfl
@[simp] theorem State.setP_PBR : (s.setP v).PBR = s.PBR := rfl
@[simp] theorem State.setP_PC : (s.setP v).PC = s.PC := rfl
@[simp] theorem State.setP_P : (s.setP v).P = v := rfl
@[simp] theorem State.setP_E : (s.setP v).E = s.E := rfl
@[simp] theorem State.setP_run : (s.setP v).run = s.run := rfl
@[simp] theorem State.setP_mem : (s.setP v).mem = s.mem := rfl
@[simp] theorem State.setP_live : (s.setP v).live = s.live := rfl
@[simp] theorem State.setP_inputs : (s.setP v).inputs = s.inputs := rfl
@[simp] theorem State.setP_out : (s.setP v).out = s.out := rfl
@[simp] theorem State.setP_bus : (s.setP v).bus = s.bus := rfl
@[simp] theorem State.setP_params : (s.setP v).params = s.params := rfl

end

/-! ## After `setE` -/

section
variable (s : State) (v : Bool)

@[simp] theorem State.setE_A : (s.setE v).A = s.A := rfl
@[simp] theorem State.setE_X : (s.setE v).X = s.X := rfl
@[simp] theorem State.setE_Y : (s.setE v).Y = s.Y := rfl
@[simp] theorem State.setE_S : (s.setE v).S = s.S := rfl
@[simp] theorem State.setE_D : (s.setE v).D = s.D := rfl
@[simp] theorem State.setE_DB : (s.setE v).DB = s.DB := rfl
@[simp] theorem State.setE_PBR : (s.setE v).PBR = s.PBR := rfl
@[simp] theorem State.setE_PC : (s.setE v).PC = s.PC := rfl
@[simp] theorem State.setE_P : (s.setE v).P = s.P := rfl
@[simp] theorem State.setE_E : (s.setE v).E = v := rfl
@[simp] theorem State.setE_run : (s.setE v).run = s.run := rfl
@[simp] theorem State.setE_mem : (s.setE v).mem = s.mem := rfl
@[simp] theorem State.setE_live : (s.setE v).live = s.live := rfl
@[simp] theorem State.setE_inputs : (s.setE v).inputs = s.inputs := rfl
@[simp] theorem State.setE_out : (s.setE v).out = s.out := rfl
@[simp] theorem State.setE_bus : (s.setE v).bus = s.bus := rfl
@[simp] theorem State.setE_params : (s.setE v).params = s.params := rfl

end

/-! ## After `setRun` -/

section
variable (s : State) (v : RunState)

@[simp] theorem State.setRun_A : (s.setRun v).A = s.A := rfl
@[simp] theorem State.setRun_X : (s.setRun v).X = s.X := rfl
@[simp] theorem State.setRun_Y : (s.setRun v).Y = s.Y := rfl
@[simp] theorem State.setRun_S : (s.setRun v).S = s.S := rfl
@[simp] theorem State.setRun_D : (s.setRun v).D = s.D := rfl
@[simp] theorem State.setRun_DB : (s.setRun v).DB = s.DB := rfl
@[simp] theorem State.setRun_PBR : (s.setRun v).PBR = s.PBR := rfl
@[simp] theorem State.setRun_PC : (s.setRun v).PC = s.PC := rfl
@[simp] theorem State.setRun_P : (s.setRun v).P = s.P := rfl
@[simp] theorem State.setRun_E : (s.setRun v).E = s.E := rfl
@[simp] theorem State.setRun_run : (s.setRun v).run = v := rfl
@[simp] theorem State.setRun_mem : (s.setRun v).mem = s.mem := rfl
@[simp] theorem State.setRun_live : (s.setRun v).live = s.live := rfl
@[simp] theorem State.setRun_inputs : (s.setRun v).inputs = s.inputs := rfl
@[simp] theorem State.setRun_out : (s.setRun v).out = s.out := rfl
@[simp] theorem State.setRun_bus : (s.setRun v).bus = s.bus := rfl
@[simp] theorem State.setRun_params : (s.setRun v).params = s.params := rfl

end

/-! ## After `setMem` -/

section
variable (s : State) (v : Memory)

@[simp] theorem State.setMem_A : (s.setMem v).A = s.A := rfl
@[simp] theorem State.setMem_X : (s.setMem v).X = s.X := rfl
@[simp] theorem State.setMem_Y : (s.setMem v).Y = s.Y := rfl
@[simp] theorem State.setMem_S : (s.setMem v).S = s.S := rfl
@[simp] theorem State.setMem_D : (s.setMem v).D = s.D := rfl
@[simp] theorem State.setMem_DB : (s.setMem v).DB = s.DB := rfl
@[simp] theorem State.setMem_PBR : (s.setMem v).PBR = s.PBR := rfl
@[simp] theorem State.setMem_PC : (s.setMem v).PC = s.PC := rfl
@[simp] theorem State.setMem_P : (s.setMem v).P = s.P := rfl
@[simp] theorem State.setMem_E : (s.setMem v).E = s.E := rfl
@[simp] theorem State.setMem_run : (s.setMem v).run = s.run := rfl
@[simp] theorem State.setMem_mem : (s.setMem v).mem = v := rfl
@[simp] theorem State.setMem_live : (s.setMem v).live = s.live := rfl
@[simp] theorem State.setMem_inputs : (s.setMem v).inputs = s.inputs := rfl
@[simp] theorem State.setMem_out : (s.setMem v).out = s.out := rfl
@[simp] theorem State.setMem_bus : (s.setMem v).bus = s.bus := rfl
@[simp] theorem State.setMem_params : (s.setMem v).params = s.params := rfl

end

/-! ## After `setLive` -/

section
variable (s : State) (v : Bool)

@[simp] theorem State.setLive_A : (s.setLive v).A = s.A := rfl
@[simp] theorem State.setLive_X : (s.setLive v).X = s.X := rfl
@[simp] theorem State.setLive_Y : (s.setLive v).Y = s.Y := rfl
@[simp] theorem State.setLive_S : (s.setLive v).S = s.S := rfl
@[simp] theorem State.setLive_D : (s.setLive v).D = s.D := rfl
@[simp] theorem State.setLive_DB : (s.setLive v).DB = s.DB := rfl
@[simp] theorem State.setLive_PBR : (s.setLive v).PBR = s.PBR := rfl
@[simp] theorem State.setLive_PC : (s.setLive v).PC = s.PC := rfl
@[simp] theorem State.setLive_P : (s.setLive v).P = s.P := rfl
@[simp] theorem State.setLive_E : (s.setLive v).E = s.E := rfl
@[simp] theorem State.setLive_run : (s.setLive v).run = s.run := rfl
@[simp] theorem State.setLive_mem : (s.setLive v).mem = s.mem := rfl
@[simp] theorem State.setLive_live : (s.setLive v).live = v := rfl
@[simp] theorem State.setLive_inputs : (s.setLive v).inputs = s.inputs := rfl
@[simp] theorem State.setLive_out : (s.setLive v).out = s.out := rfl
@[simp] theorem State.setLive_bus : (s.setLive v).bus = s.bus := rfl
@[simp] theorem State.setLive_params : (s.setLive v).params = s.params := rfl

end

/-! ## After `setInputs` -/

section
variable (s : State) (v : List Input)

@[simp] theorem State.setInputs_A : (s.setInputs v).A = s.A := rfl
@[simp] theorem State.setInputs_X : (s.setInputs v).X = s.X := rfl
@[simp] theorem State.setInputs_Y : (s.setInputs v).Y = s.Y := rfl
@[simp] theorem State.setInputs_S : (s.setInputs v).S = s.S := rfl
@[simp] theorem State.setInputs_D : (s.setInputs v).D = s.D := rfl
@[simp] theorem State.setInputs_DB : (s.setInputs v).DB = s.DB := rfl
@[simp] theorem State.setInputs_PBR : (s.setInputs v).PBR = s.PBR := rfl
@[simp] theorem State.setInputs_PC : (s.setInputs v).PC = s.PC := rfl
@[simp] theorem State.setInputs_P : (s.setInputs v).P = s.P := rfl
@[simp] theorem State.setInputs_E : (s.setInputs v).E = s.E := rfl
@[simp] theorem State.setInputs_run : (s.setInputs v).run = s.run := rfl
@[simp] theorem State.setInputs_mem : (s.setInputs v).mem = s.mem := rfl
@[simp] theorem State.setInputs_live : (s.setInputs v).live = s.live := rfl
@[simp] theorem State.setInputs_inputs : (s.setInputs v).inputs = v := rfl
@[simp] theorem State.setInputs_out : (s.setInputs v).out = s.out := rfl
@[simp] theorem State.setInputs_bus : (s.setInputs v).bus = s.bus := rfl
@[simp] theorem State.setInputs_params : (s.setInputs v).params = s.params := rfl

end

/-! ## After `setOut` -/

section
variable (s : State) (v : Output)

@[simp] theorem State.setOut_A : (s.setOut v).A = s.A := rfl
@[simp] theorem State.setOut_X : (s.setOut v).X = s.X := rfl
@[simp] theorem State.setOut_Y : (s.setOut v).Y = s.Y := rfl
@[simp] theorem State.setOut_S : (s.setOut v).S = s.S := rfl
@[simp] theorem State.setOut_D : (s.setOut v).D = s.D := rfl
@[simp] theorem State.setOut_DB : (s.setOut v).DB = s.DB := rfl
@[simp] theorem State.setOut_PBR : (s.setOut v).PBR = s.PBR := rfl
@[simp] theorem State.setOut_PC : (s.setOut v).PC = s.PC := rfl
@[simp] theorem State.setOut_P : (s.setOut v).P = s.P := rfl
@[simp] theorem State.setOut_E : (s.setOut v).E = s.E := rfl
@[simp] theorem State.setOut_run : (s.setOut v).run = s.run := rfl
@[simp] theorem State.setOut_mem : (s.setOut v).mem = s.mem := rfl
@[simp] theorem State.setOut_live : (s.setOut v).live = s.live := rfl
@[simp] theorem State.setOut_inputs : (s.setOut v).inputs = s.inputs := rfl
@[simp] theorem State.setOut_out : (s.setOut v).out = v := rfl
@[simp] theorem State.setOut_bus : (s.setOut v).bus = s.bus := rfl
@[simp] theorem State.setOut_params : (s.setOut v).params = s.params := rfl

end

/-! ## After `setBus` -/

section
variable (s : State) (v : List BusOp)

@[simp] theorem State.setBus_A : (s.setBus v).A = s.A := rfl
@[simp] theorem State.setBus_X : (s.setBus v).X = s.X := rfl
@[simp] theorem State.setBus_Y : (s.setBus v).Y = s.Y := rfl
@[simp] theorem State.setBus_S : (s.setBus v).S = s.S := rfl
@[simp] theorem State.setBus_D : (s.setBus v).D = s.D := rfl
@[simp] theorem State.setBus_DB : (s.setBus v).DB = s.DB := rfl
@[simp] theorem State.setBus_PBR : (s.setBus v).PBR = s.PBR := rfl
@[simp] theorem State.setBus_PC : (s.setBus v).PC = s.PC := rfl
@[simp] theorem State.setBus_P : (s.setBus v).P = s.P := rfl
@[simp] theorem State.setBus_E : (s.setBus v).E = s.E := rfl
@[simp] theorem State.setBus_run : (s.setBus v).run = s.run := rfl
@[simp] theorem State.setBus_mem : (s.setBus v).mem = s.mem := rfl
@[simp] theorem State.setBus_live : (s.setBus v).live = s.live := rfl
@[simp] theorem State.setBus_inputs : (s.setBus v).inputs = s.inputs := rfl
@[simp] theorem State.setBus_out : (s.setBus v).out = s.out := rfl
@[simp] theorem State.setBus_bus : (s.setBus v).bus = v := rfl
@[simp] theorem State.setBus_params : (s.setBus v).params = s.params := rfl

end

end Sys2Proof.Machine
end

