-- ==== Sys2Proof/Laws/Ops.lean ====
section
/-! SUPPORT. What each shared operation of `Machine/Ops.lean` does, said once: the value it gives and the state it
leaves, as a record in which every field it does not touch is the old one. -/

namespace Sys2Proof.Machine

open Sys2Proof.Claims

/-! ## Registers and flags -/

@[simp] theorem State.flag_putFlag (s : State) (f g : Flag) (b : Bool) :
    (s.putFlag g b).flag f = if f = g then b else s.flag f := getFlag_putFlag f g b s.P

@[simp] theorem State.flag_setNZ (s : State) (f : Flag) (w : Width) (v : Word) :
    (s.setNZ w v).flag f = if f = .N then signBit w v else if f = .Z then decide (v = 0) else s.flag f :=
  getFlag_flagsNZ f w v s.P

theorem State.putFlag_eq (s : State) (f : Flag) (b : Bool) : s.putFlag f b = { s with P := Machine.putFlag f b s.P } :=
  rfl

theorem State.setNZ_eq (s : State) (w : Width) (v : Word) : s.setNZ w v = { s with P := flagsNZ w v s.P } := rfl

theorem State.writeA_eq (s : State) (w : Width) (v : Word) :
    s.writeA w v = { s with A := match w with | .narrow => joinBytes (highByte s.A) (lowByte v) | .wide => v } := by
  cases w <;> rfl

/-- A write of the accumulator does what the rule says of it. -/
theorem State.writeA_gets (s : State) (w : Width) (v : Word) : AccumulatorGets w v s (s.writeA w v) := by
  cases w <;> simp [AccumulatorGets, State.writeA]

theorem State.writeX_eq (s : State) (w : Width) (v : Word) : s.writeX w v = { s with X := takeBits w v } := rfl

theorem State.writeY_eq (s : State) (w : Width) (v : Word) : s.writeY w v = { s with Y := takeBits w v } := rfl

/-- `SetP` (R35). -/
theorem State.writeP_eq (s : State) (v : Byte) :
    s.writeP v = { s with
      P := forced s.E v, X := truncated (forced s.E v) s.X, Y := truncated (forced s.E v) s.Y } := by
  simp only [State.writeP, truncated, forced, State.flag, getFlag, Flag.bit, State.setP_P]
  split <;> split <;> rfl

/-- `SetS` (R36). -/
theorem State.writeS_eq (s : State) (v : Word) :
    s.writeS v = { s with S := if s.E then 0x0100 ||| (v &&& 0x00FF) else v } := rfl

/-- Where the operation is binary no free value enters it (R222). -/
theorem State.decimal_eq_false {s : State} (h : Binary s) : s.decimal = false := by
  rcases h with h | h <;> simp [State.decimal, h]

/-! ## The bus -/

theorem busRead_eq (ea : Ea) (s : State) :
    busRead ea s = (s.mem.read ea.cell, { s with bus := s.bus ++ [ea.readOp (s.mem.read ea.cell)] }) := rfl

theorem busWrite_eq (ea : Ea) (v : Byte) (s : State) :
    busWrite ea v s = { s with mem := s.mem.write ea.cell v, bus := s.bus ++ [ea.writeOp v] } := rfl

theorem read16_eq (ea : Ea) (s : State) :
    read16 ea s = (dataAt s ea .wide, { s with bus := s.bus ++ dataReads s ea .wide }) := by
  simp [read16, busRead_eq, dataAt, dataReads]

theorem readData_eq (ea : Ea) (w : Width) (s : State) :
    readData ea w s = (dataAt s ea w, { s with bus := s.bus ++ dataReads s ea w }) := by
  cases w
  · rfl
  · exact read16_eq ea s

theorem ofNat_add (off : Word) (n : Nat) : off + 1 + BitVec.ofNat 16 n = off + BitVec.ofNat 16 (n + 1) := by
  rw [BitVec.add_assoc]
  congr 1
  apply BitVec.eq_of_toNat_eq
  simp [BitVec.toNat_add, Nat.add_comm]

theorem add_one_one (off : Word) : off + 1 + 1 = off + 2 := ofNat_add off 1

/-- Consecutive reads, the first one apart. -/
theorem pairReads_succ (s : State) (bank : Byte) (off : Word) (n : Nat) :
    pairReads s bank off (n + 1) = .read8 bank off (byteIn s bank off) :: pairReads s bank (off + 1) n := by
  have z : off + BitVec.ofNat 16 0 = off := BitVec.add_zero off
  simp only [pairReads, List.range_succ_eq_map, List.map_cons, List.map_map, Function.comp_def, z, ofNat_add]

theorem pairReads_zero (s : State) (bank : Byte) (off : Word) : pairReads s bank off 0 = [] := rfl

/-- A word read at a pair address. -/
theorem read16_pair (bank : Byte) (off : Word) (s : State) :
    read16 (.pair bank off) s = (wordIn s bank off, { s with bus := s.bus ++ pairReads s bank off 2 }) := by
  rw [read16_eq, pairReads_succ, pairReads_succ, pairReads_zero]
  rfl

/-- A 24-bit pointer read at a pair address. -/
theorem read24_pair (bank : Byte) (off : Word) (s : State) :
    read24 (.pair bank off) s = (addrIn s bank off, { s with bus := s.bus ++ pairReads s bank off 3 }) := by
  simp only [read24, busRead_eq, pairReads_succ, pairReads_zero, Ea.succ, List.append_assoc, add_one_one]
  rfl

theorem writeData_eq (ea : Ea) (w : Width) (v : Word) (s : State) :
    writeData ea w v s =
      { s with mem := (writeData ea w v s).mem, bus := s.bus ++ dataWrites s ea w v } := by
  cases w <;> simp [writeData, busWrite_eq, dataWrites]

/-- The cells of an access are inside the address space. -/
theorem Ea.cell_lt (ea : Ea) : ea.cell < 2 ^ 24 := by
  cases ea with
  | pair bank off => have := bank.isLt; have := off.isLt; simp only [Ea.cell]; omega
  | flat a => exact a.isLt

/-- The two cells of a 16-bit access differ, whether or not flat addresses carry. -/
theorem Ea.succ_cell_ne (ea : Ea) (carry : Bool) : (ea.succ carry).cell ≠ ea.cell := by
  cases ea with
  | pair bank off =>
    have := off.isLt
    have h : (off + 1).toNat = (off.toNat + 1) % 2 ^ 16 := BitVec.toNat_add off 1
    simp only [Ea.succ, Ea.cell, h]
    omega
  | flat a =>
    have := a.isLt
    cases carry
    · have h : (offsetOf a + 1).toNat = ((offsetOf a).toNat + 1) % 2 ^ 16 := BitVec.toNat_add _ 1
      have e : (bankOf a ++ (offsetOf a + 1)).toNat = (bankOf a).toNat * 65536 + (offsetOf a + 1).toNat := by
        rw [BitVec.toNat_append, ← Nat.shiftLeft_add_eq_or_of_lt (offsetOf a + 1).isLt, Nat.shiftLeft_eq]
      simp only [Ea.succ, Bool.false_eq_true, if_false, Ea.cell, e, h, bankOf_toNat, offsetOf_toNat]
      omega
    · have h : (a + 1).toNat = (a.toNat + 1) % 2 ^ 24 := BitVec.toNat_add a 1
      simp only [Ea.succ, if_true, Ea.cell, h]
      omega

/-- A data write stores its bytes and no other (R73). -/
theorem writeData_stores (ea : Ea) (w : Width) (v : Word) (s : State) (h : s.mem.wf = true) :
    DataStored ea w v s (writeData ea w v s) := by
  have ne := ea.succ_cell_ne s.params.longCarry
  cases w
  · refine ⟨Memory.read_write h _ _, by simp, fun k hk _ => Memory.read_write_other _ _ hk⟩
  · refine ⟨?_, fun _ => ?_, fun k hk hk' => ?_⟩
    · exact (Memory.read_write_other _ _ (Ne.symm ne)).trans (Memory.read_write h _ _)
    · exact Memory.read_write (Memory.wf_write _ h ea.cell_lt) _ _
    · exact (Memory.read_write_other _ _ (hk' rfl)).trans (Memory.read_write_other _ _ hk)

/-- A data write keeps the canonical form. -/
theorem writeData_wf (ea : Ea) (w : Width) (v : Word) (s : State) (h : s.mem.wf = true) :
    (writeData ea w v s).mem.wf = true := by
  cases w
  · exact Memory.wf_write _ h ea.cell_lt
  · exact Memory.wf_write _ (Memory.wf_write _ h ea.cell_lt) (s.succ ea).cell_lt

/-! ## The stack -/

theorem pairZero_cell (off : Word) : (Ea.pair 0x00 off).cell = off.toNat := by simp [Ea.cell]

theorem push8_eq (v : Byte) (s : State) :
    push8 v s = { s with
      S := stackDown s.E s.S, mem := s.mem.write s.S.toNat v, bus := s.bus ++ [.write8 0x00 s.S v] } := by
  simp only [push8, busWrite_eq, State.writeS_eq, pairZero_cell]
  rfl

theorem pull8_eq (s : State) :
    pull8 s = (pulledByte s 1, { s with S := pullSlot s 1, bus := s.bus ++ pullReads s 1 }) := by
  simp [pull8, busRead_eq, State.writeS_eq, pulledByte, pullSlot, byteIn, pullReads, stackUp, Ea.cell, Ea.readOp,
    List.range, List.range.loop]

theorem pull16_eq (s : State) :
    pull16 s = (pulledWord s 1, { s with S := pullSlot s 2, bus := s.bus ++ pullReads s 2 }) := by
  simp [pull16, pull8_eq, pulledByte, pulledWord, pullSlot, byteIn, pullReads, List.range, List.range.loop]

theorem pullData_eq (w : Width) (s : State) :
    pullData w s =
      (pulledData w s, { s with S := pullSlot s (byteCount w), bus := s.bus ++ pullReads s (byteCount w) }) := by
  cases w
  · simp [pullData, pull8_eq, pulledData, byteCount]
  · exact pull16_eq s

/-- Push the bytes of a list, first byte first. -/
theorem pushList_eq (bs : List Byte) (s : State) :
    bs.foldl (fun t b => push8 b t) s = { s with
      S := stackAfterPushes s.E s.S bs.length, mem := (bs.foldl (fun t b => push8 b t) s).mem,
      bus := s.bus ++ pushWrites s bs } := by
  induction bs generalizing s with
  | nil => simp [stackAfterPushes, pushWrites, pushSlots]
  | cons b bs ih =>
    rw [List.foldl_cons, ih]
    simp [push8_eq, stackAfterPushes, pushWrites, pushSlots]

theorem pushList_other (bs : List Byte) (s : State) (k : Nat) (h : ∀ x ∈ pushSlots s.E s.S bs, k ≠ x.1.toNat) :
    (bs.foldl (fun t b => push8 b t) s).mem.read k = s.mem.read k := by
  induction bs generalizing s with
  | nil => rfl
  | cons b bs ih =>
    simp only [pushSlots, List.mem_cons, forall_eq_or_imp] at h
    rw [List.foldl_cons, ih _ (by simpa [push8_eq] using h.2), push8_eq]
    exact Memory.read_write_other _ _ h.1

theorem pushList_wf (bs : List Byte) (s : State) (h : s.mem.wf = true) :
    (bs.foldl (fun t b => push8 b t) s).mem.wf = true := by
  induction bs generalizing s with
  | nil => exact h
  | cons b bs ih =>
    refine ih _ ?_
    simp only [push8_eq]
    exact Memory.wf_write _ h (by have := s.S.isLt; omega)

theorem pushList_slots (bs : List Byte) (s : State) (h : s.mem.wf = true)
    (d : ((pushSlots s.E s.S bs).map fun x => x.1.toNat).Nodup) :
    ∀ x ∈ pushSlots s.E s.S bs, (bs.foldl (fun t b => push8 b t) s).mem.read x.1.toNat = x.2 := by
  induction bs generalizing s with
  | nil => simp [pushSlots]
  | cons b bs ih =>
    have wf' : (push8 b s).mem.wf = true := pushList_wf [b] s h
    have e : pushSlots (push8 b s).E (push8 b s).S bs = pushSlots s.E (stackDown s.E s.S) bs := by rw [push8_eq]
    simp only [pushSlots, List.map_cons, List.nodup_cons, List.mem_map, not_exists, not_and] at d
    simp only [pushSlots, List.mem_cons, forall_eq_or_imp, List.foldl_cons]
    refine ⟨?_, ?_⟩
    · rw [pushList_other, push8_eq]
      · exact Memory.read_write h _ _
      · rw [e]
        exact fun x hx hc => d.1 x hx hc.symm
    · rw [← e]
      exact ih _ wf' (by rw [e]; exact d.2)

theorem stackDown_toNat (e : Bool) (p : Word) :
    (stackDown e p).toNat = if e then 256 + (p.toNat + 65535) % 256 else (p.toNat + 65535) % 65536 := by
  have h : (p - 1).toNat = (p.toNat + 65535) % 65536 := by
    have h : (p - 1).toNat = (2 ^ 16 - 1 + p.toNat) % 2 ^ 16 := BitVec.toNat_sub p 1
    rw [h]
    omega
  cases e
  · simpa [stackDown] using h
  · have m : ((p - 1) &&& 0x00FF).toNat = (p.toNat + 65535) % 256 := by
      rw [BitVec.toNat_and, h]
      have : ((p.toNat + 65535) % 65536) &&& (2 ^ 8 - 1) = _ := Nat.and_two_pow_sub_one_eq_mod _ 8
      refine this.trans ?_
      omega
    have lt : ((p - 1) &&& 0x00FF).toNat < 2 ^ 8 := by rw [m]; omega
    have o : (stackDown true p).toNat = 1 <<< 8 ||| ((p - 1) &&& 0x00FF).toNat := BitVec.toNat_or ..
    rw [o, ← Nat.shiftLeft_add_eq_or_of_lt lt, m]
    rfl

/-- Up to four pushes go to four different slots, in both modes, wherever `S` stands. -/
theorem pushSlots_nodup (e : Bool) (p : Word) (bs : List Byte) (h : bs.length ≤ 4) :
    ((pushSlots e p bs).map fun x => x.1.toNat).Nodup := by
  have lt := p.isLt
  match bs, h with
  | [], _ => simp [pushSlots]
  | [_], _ => simp [pushSlots]
  | [_, _], _ => cases e <;> simp [pushSlots, stackDown_toNat] <;> omega
  | [_, _, _], _ => cases e <;> simp [pushSlots, stackDown_toNat] <;> omega
  | [_, _, _, _], _ => cases e <;> simp [pushSlots, stackDown_toNat] <;> omega

/-- Up to four pushes do what the rule says of them (R74). -/
theorem pushList_pushed (bs : List Byte) (s : State) (h : s.mem.wf = true) (l : bs.length ≤ 4) :
    Pushed bs s (bs.foldl (fun t b => push8 b t) s) :=
  ⟨pushList_slots bs s h (pushSlots_nodup s.E s.S bs l), fun k => pushList_other bs s k, by rw [pushList_eq]⟩

theorem pushData_eq (w : Width) (v : Word) (s : State) :
    pushData w v s = (pushOrder w v).foldl (fun t b => push8 b t) s := by cases w <;> rfl

/-! ## Fetch -/

/-- Fetching `n` bytes reads them ascending, each once, and moves `PC` past them (R67, R75). -/
theorem fetchBytes_eq (n : Nat) (s : State) :
    fetchBytes n s = { s with
      PC := s.PC + BitVec.ofNat 16 n, bus := s.bus ++ pairReads s s.PBR s.PC n } := by
  induction n generalizing s with
  | zero => simp [fetchBytes, pairReads]
  | succ k ih =>
    rw [fetchBytes, ih]
    simp only [fetch8, busRead_eq, State.setPC, ofNat_add, pairReads_succ, List.append_assoc]
    rfl

/-! ## Interrupts -/

/-- The frame of an interrupt, in the order it is pushed (R368). -/
theorem interrupt_pushes (ret : Word) (s : State) :
    (let s1 := if s.E then s else push8 s.PBR s
     let s2 := push16 ret s1
     push8 s2.P s2) =
      ((if s.E then [] else [s.PBR]) ++ [highByte ret, lowByte ret, s.P]).foldl (fun t b => push8 b t) s := by
  cases h : s.E <;> simp [push16, push8_eq, h]

/-- The entry sequence does what the rule says of it (R368). -/
theorem interrupt_enters (vecN vecE ret : Word) (s : State) (h : s.mem.wf = true) :
    Entered vecN vecE ret s (interrupt vecN vecE ret s) := by
  have l : ((if s.E then [] else [s.PBR]) ++ [highByte ret, lowByte ret, s.P]).length ≤ 4 := by split <;> simp
  obtain ⟨p1, p2, p3⟩ := pushList_pushed _ s h l
  have e := pushList_eq ((if s.E then [] else [s.PBR]) ++ [highByte ret, lowByte ret, s.P]) s
  simp only [Entered, interrupt, interrupt_pushes ret s]
  generalize List.foldl _ s _ = t at p1 p2 p3 e ⊢
  rw [e] at p1 p2 p3 ⊢
  simp only [readVector, State.putFlag, State.setP, State.setPBR, State.setPC, State.setRun, read16_pair]
  refine ⟨⟨p1, p2, p3⟩, ?_, ?_, fun f hf => ?_, trivial, rfl, trivial, rfl⟩
  · simp [State.flag]
  · simp [State.flag]
  · simp only [List.mem_cons, List.mem_nil_iff, or_false, not_or] at hf
    simp [State.flag, hf]

/-- RTI (`45_system.md` R342). -/
theorem returnFromInterrupt_eq (s : State) :
    returnFromInterrupt s = { s with
      P := forced s.E (pulledByte s 1), X := truncated (forced s.E (pulledByte s 1)) s.X,
      Y := truncated (forced s.E (pulledByte s 1)) s.Y, PC := pulledWord s 2,
      PBR := if s.E then s.PBR else pulledByte s 4, S := pullSlot s (if s.E then 3 else 4),
      bus := s.bus ++ pullReads s (if s.E then 3 else 4) } := by
  cases h : s.E <;>
    simp [returnFromInterrupt, pull8_eq, State.writeP_eq, pull16_eq, State.setPC, State.setPBR, pulledWord, pulledByte,
      pullSlot, pullReads, byteIn, h, List.range, List.range.loop]

end Sys2Proof.Machine
end

