-- ==== Sys2Proof/Laws/Operands.lean ====
section
/-! SUPPORT. What resolving an addressing mode, reading an operand, writing one and modifying one do, said once. -/

namespace Sys2Proof.Machine

open Sys2Proof.Claims

/-- `LongAdd` in numbers (`40_addressing_modes.md` R131). -/
theorem longAdd_eq (s : State) (a : Addr) (i : Word) : longAdd s.params.longCarry a i = longSum s a i := by
  have := a.isLt
  have := i.isLt
  have ho : (offsetOf a + i).toNat = (a.toNat % 65536 + i.toNat) % 65536 := by
    rw [BitVec.toNat_add, offsetOf_toNat]
  have e : (bankOf a ++ (offsetOf a + i)).toNat = a.toNat / 65536 * 65536 + (offsetOf a + i).toNat := by
    rw [BitVec.toNat_append, ← Nat.shiftLeft_add_eq_or_of_lt (offsetOf a + i).isLt, Nat.shiftLeft_eq, bankOf_toNat]
  cases h : s.params.longCarry <;> apply BitVec.eq_of_toNat_eq <;> simp only [longAdd, longSum, h, if_true,
    Bool.false_eq_true, if_false, BitVec.toNat_add, BitVec.toNat_ofNat, BitVec.toNat_setWidth]
  · rw [e, ho]
    omega
  · omega

theorem pointerInDB_eq (off i : Word) (s : State) :
    pointerInDB (.pair 0x00 off) i s =
      (.pair s.DB (wordIn s 0x00 off + i), { s with bus := s.bus ++ pairReads s 0x00 off 2 }) := by
  simp only [pointerInDB, read16_pair]

theorem longPointer_eq (off i : Word) (s : State) :
    longPointer (.pair 0x00 off) i s =
      (.flat (longSum s (addrIn s 0x00 off) i), { s with bus := s.bus ++ pairReads s 0x00 off 3 }) := by
  simp only [longPointer, read24_pair, longAdd_eq]

/-- Resolving a mode changes nothing but the list of bus operations. -/
theorem effectiveAddress_state (m : Mode) (s : State) :
    (effectiveAddress m s).2 = { s with bus := (effectiveAddress m s).2.bus } := by
  cases m <;>
    simp only [effectiveAddress, directPage, directPageIndexed, stackRelative, pointerInDB_eq, longPointer_eq]

theorem dataAt_bus (s : State) (bus : List BusOp) (ea : Ea) (w : Width) :
    dataAt { s with bus := bus } ea w = dataAt s ea w := rfl

theorem dataReads_bus (s : State) (bus : List BusOp) (ea : Ea) (w : Width) :
    dataReads { s with bus := bus } ea w = dataReads s ea w := rfl

theorem dataWrites_bus (s : State) (bus : List BusOp) (ea : Ea) (w : Width) (v : Word) :
    dataWrites { s with bus := bus } ea w v = dataWrites s ea w v := rfl

/-- A memory operand (`41_load_store_transfer.md` R160). -/
theorem operandRead_mem (m : Mode) (w : Width) (s : State) :
    operandRead (.mem m) w s =
      (dataAt s (effectiveAddress m s).1 w,
        { s with bus := (effectiveAddress m s).2.bus ++ dataReads s (effectiveAddress m s).1 w }) := by
  simp only [operandRead, readData_eq]
  rw [effectiveAddress_state, dataAt_bus, dataReads_bus]

/-- Reading an operand changes nothing but the list of bus operations. -/
theorem operandRead_state (src : Source) (w : Width) (s : State) :
    (operandRead src w s).2 = { s with bus := (operandRead src w s).2.bus } := by
  cases src with
  | imm v => rfl
  | mem m => rw [operandRead_mem]

theorem takeBits_dataAt (s : State) (ea : Ea) (w : Width) : takeBits w (dataAt s ea w) = dataAt s ea w := by
  cases w
  · exact takeBits_zeroExtend _ _
  · exact takeBits_wide _

/-- An operand has no bit above its width. -/
theorem takeBits_operandRead (src : Source) (w : Width) (s : State) :
    takeBits w (operandRead src w s).1 = (operandRead src w s).1 := by
  cases src with
  | imm v => exact takeBits_immValue w v
  | mem m => rw [operandRead_mem]; exact takeBits_dataAt _ _ _

theorem operandRead_lt (src : Source) (w : Width) (s : State) : (operandRead src w s).1.toNat < 2 ^ widthBits w := by
  rw [← takeBits_operandRead]
  exact takeBits_lt _ _

theorem dataStored_bus {ea : Ea} {w : Width} {v : Word} {s t : State} {bus : List BusOp}
    (h : DataStored ea w v { s with bus := bus } t) : DataStored ea w v s t := h

/-- Writing an operand (R160): pointer reads, then the data write. -/
theorem operandWrite_eq (m : Mode) (w : Width) (v : Word) (s : State) :
    operandWrite m w v s = { s with
      mem := (operandWrite m w v s).mem,
      bus := (effectiveAddress m s).2.bus ++ dataWrites s (effectiveAddress m s).1 w v } := by
  have e := effectiveAddress_state m s
  simp only [operandWrite]
  rw [e, writeData_eq, dataWrites_bus]

theorem operandWrite_stores (m : Mode) (w : Width) (v : Word) (s : State) (h : s.mem.wf = true) :
    DataStored (effectiveAddress m s).1 w v s (operandWrite m w v s) := by
  have e := effectiveAddress_state m s
  have h' : (effectiveAddress m s).2.mem.wf = true := by rw [e]; exact h
  have := writeData_stores (effectiveAddress m s).1 w v _ h'
  rw [e] at this
  simp only [operandWrite]
  rw [e]
  exact this

/-- Modifying the accumulator (R122). -/
theorem modify_acc (w : Width) (r : Word → Word) (p : Word → Byte → Byte) (s : State) :
    modify .acc w r p s = ({ s with P := p (takeBits w s.A) s.P } : State).writeA w (r (takeBits w s.A)) := rfl

/-- Modifying a memory operand (`20_memory.md` R78): one read pass, one write pass, one address. -/
theorem modify_mem (m : Mode) (w : Width) (r : Word → Word) (p : Word → Byte → Byte) (s : State) :
    let ea := (effectiveAddress m s).1
    modify (.mem m) w r p s = { s with
      P := p (dataAt s ea w) s.P, mem := (writeData ea w (r (dataAt s ea w)) s).mem,
      bus := (effectiveAddress m s).2.bus ++ dataReads s ea w ++ dataWrites s ea w (r (dataAt s ea w)) } := by
  have e := effectiveAddress_state m s
  generalize (effectiveAddress m s).2.bus = bus at e ⊢
  simp only [modify, readData_eq]
  rw [e]
  simp only [State.setP, dataAt_bus, dataReads_bus]
  rw [writeData_eq]
  cases w <;> simp [writeData, busWrite_eq, dataAt, dataReads, dataWrites]

end Sys2Proof.Machine
end

