-- ==== Sys2Proof/Laws/Families.lean ====
section
/-! SUPPORT. What the shared meanings of each instruction family answer, said once: always a next state, written as the
old one with the fields that change. -/

namespace Sys2Proof.Machine

open Sys2Proof.Claims

/-! ## Loads, transfers, pulls -/

theorem loadA_eq (src : Source) (s : State) :
    loadA src s = .next { s with
      A := (s.writeA s.wA (operandRead src s.wA s).1).A, P := flagsNZ s.wA (operandRead src s.wA s).1 s.P,
      bus := (operandRead src s.wA s).2.bus } := by
  simp only [loadA]
  rw [operandRead_state]
  cases s.wA <;> rfl

theorem loadX_eq (src : Source) (s : State) :
    loadX src s = .next { s with
      X := (operandRead src s.wX s).1, P := flagsNZ s.wX (operandRead src s.wX s).1 s.P,
      bus := (operandRead src s.wX s).2.bus } := by
  simp only [loadX, State.writeX_eq, takeBits_operandRead]
  rw [operandRead_state]
  rfl

theorem loadY_eq (src : Source) (s : State) :
    loadY src s = .next { s with
      Y := (operandRead src s.wX s).1, P := flagsNZ s.wX (operandRead src s.wX s).1 s.P,
      bus := (operandRead src s.wX s).2.bus } := by
  simp only [loadY, State.writeY_eq, takeBits_operandRead]
  rw [operandRead_state]
  rfl

theorem transferToA_eq (v : Word) (s : State) :
    transferToA v s = .next { s with
      A := (s.writeA s.wA (takeBits s.wA v)).A, P := flagsNZ s.wA (takeBits s.wA v) s.P } := by
  simp only [transferToA]
  cases s.wA <;> rfl

theorem transferToX_eq (v : Word) (s : State) :
    transferToX v s = .next { s with X := takeBits s.wX v, P := flagsNZ s.wX (takeBits s.wX v) s.P } := by
  simp only [transferToX, State.writeX_eq, State.setNZ_eq, takeBits_takeBits]

theorem transferToY_eq (v : Word) (s : State) :
    transferToY v s = .next { s with Y := takeBits s.wX v, P := flagsNZ s.wX (takeBits s.wX v) s.P } := by
  simp only [transferToY, State.writeY_eq, State.setNZ_eq, takeBits_takeBits]

/-! ## Arithmetic and logic -/

theorem addToA_eq (b : Bool) (w : Width) (m : Word) (s : State) :
    addToA b w m s = .next { s with
      A := (s.writeA w (sumResult s.decimal b w (takeBits w s.A) m (s.flag .C))).A,
      P := sumFlags s.decimal b w (takeBits w s.A) m (s.flag .C) s.P } := by
  cases w <;> rfl

theorem addWithCarry_eq (src : Source) (s : State) :
    addWithCarry src s = .next { s with
      A := (s.writeA s.wA
        (sumResult s.decimal false s.wA (takeBits s.wA s.A) (operandRead src s.wA s).1 (s.flag .C))).A,
      P := sumFlags s.decimal false s.wA (takeBits s.wA s.A) (operandRead src s.wA s).1 (s.flag .C) s.P,
      bus := (operandRead src s.wA s).2.bus } := by
  simp only [addWithCarry, addToA_eq]
  rw [operandRead_state]
  cases s.wA <;> rfl

theorem subtractWithBorrow_eq (src : Source) (s : State) :
    subtractWithBorrow src s = .next { s with
      A := (s.writeA s.wA
        (sumResult s.decimal true s.wA (takeBits s.wA s.A) (operandRead src s.wA s).1 (s.flag .C))).A,
      P := sumFlags s.decimal true s.wA (takeBits s.wA s.A) (operandRead src s.wA s).1 (s.flag .C) s.P,
      bus := (operandRead src s.wA s).2.bus } := by
  simp only [subtractWithBorrow, addToA_eq]
  rw [operandRead_state]
  cases s.wA <;> rfl

theorem compareA_eq (src : Source) (s : State) :
    compareA src s = .next { s with
      P := compareFlags s.wA (takeBits s.wA s.A) (operandRead src s.wA s).1 s.P,
      bus := (operandRead src s.wA s).2.bus } := by
  simp only [compareA]
  rw [operandRead_state]
  rfl

theorem compareX_eq (src : Source) (s : State) :
    compareX src s = .next { s with
      P := compareFlags s.wX (takeBits s.wX s.X) (operandRead src s.wX s).1 s.P,
      bus := (operandRead src s.wX s).2.bus } := by
  simp only [compareX]
  rw [operandRead_state]
  rfl

theorem compareY_eq (src : Source) (s : State) :
    compareY src s = .next { s with
      P := compareFlags s.wX (takeBits s.wX s.Y) (operandRead src s.wX s).1 s.P,
      bus := (operandRead src s.wX s).2.bus } := by
  simp only [compareY]
  rw [operandRead_state]
  rfl

theorem logicalA_eq (f : Word → Word → Word) (src : Source) (s : State) :
    logicalA f src s = .next { s with
      A := (s.writeA s.wA (f (takeBits s.wA s.A) (operandRead src s.wA s).1)).A,
      P := flagsNZ s.wA (f (takeBits s.wA s.A) (operandRead src s.wA s).1) s.P,
      bus := (operandRead src s.wA s).2.bus } := by
  simp only [logicalA]
  rw [operandRead_state]
  cases s.wA <;> rfl

theorem bitTest_eq (copyNV : Bool) (src : Source) (s : State) :
    bitTest copyNV src s = .next { s with
      P := bitFlags copyNV s.wA (takeBits s.wA s.A) (operandRead src s.wA s).1 s.P,
      bus := (operandRead src s.wA s).2.bus } := by
  simp only [bitTest]
  rw [operandRead_state]
  rfl

/-! ## Block moves and branches -/

theorem blockMove_eq (delta : Word) (dst src : Byte) (s : State) :
    blockMove delta dst src s = .next { s with
      mem := s.mem.write (Ea.pair dst s.Y).cell (byteIn s src s.X), X := takeBits s.wX (s.X + delta),
      Y := takeBits s.wX (s.Y + delta), A := s.A - 1, DB := dst, PC := if s.A - 1 ≠ 0 then s.PC - 3 else s.PC,
      out := .step (if s.A - 1 ≠ 0 then s.params.cycMoveContinue else s.params.cycMoveDone) .ok,
      bus := s.bus ++ [.read8 src s.X (byteIn s src s.X), .write8 dst s.Y (byteIn s src s.X)] } := by
  by_cases h : s.A - 1#16 = 0#16 <;>
    simp [blockMove, busRead_eq, busWrite_eq, State.setX, State.setY, State.setA, State.setDB, State.setPC, State.costs,
      State.setOut, h, byteIn, Ea.cell, Ea.readOp, Ea.writeOp]

theorem branch_eq (cond : Bool) (r : Byte) (s : State) :
    branch cond r s = .next { s with PC := if cond then s.PC + signExtend r else s.PC } := by
  cases cond <;> rfl

/-! ## Commands -/

/-- `Reset` (`70_reset_and_hazards.md` R400). -/
theorem resetCommand_eq (s : State) :
    resetCommand s = { s with
      A := s.params.resetA, X := s.params.resetX &&& 0x00FF, Y := s.params.resetY &&& 0x00FF, S := 0x01FF,
      D := s.params.resetD, DB := s.params.resetDB, PBR := 0x00, PC := wordIn s 0x00 s.params.vecReset,
      P := s.params.resetP, E := true, run := .running, live := true, out := .nothing,
      bus := pairReads s 0x00 s.params.vecReset 2 } := by
  simp only [resetCommand, readVector, read16_pair, State.setPC]
  rfl

theorem nmiCommand_stopped (s : State) (h : s.run = .stopped) :
    nmiCommand s = { s with bus := [], out := .nothing } := by
  simp [nmiCommand, h, State.setBus, State.setOut]

/-- An instruction runs on the state in which all its bytes are fetched (`30_encoding.md` R90). -/
theorem stepRunning_decoded {op : Byte} {s : State} {i : Instr} (h : s.params.supported op = true)
    (d : decode (s.flag .M) (s.flag .X) s.codeBytes = .ok i) :
    stepRunning op s = exec i { s with
      PC := s.PC + BitVec.ofNat 16 (fetchedLength (s.flag .M) (s.flag .X) op),
      bus := s.bus ++ pairReads s s.PBR s.PC (fetchedLength (s.flag .M) (s.flag .X) op),
      out := .step (s.params.cost op) .ok } := by
  simp only [stepRunning, h, if_true, d, fetchBytes_eq]
  rfl

end Sys2Proof.Machine
end

