-- ==== Sys2Proof/Laws/PerInstr.lean ====
section
/-! SUPPORT. The family `EncodedLength`, one lemma per instruction: the encoding begins with an opcode and is as long as
`spec/30_encoding.md` R91 says an instruction with that opcode is, at the width flags at which it can be fetched. -/

namespace Sys2Proof.Laws

/-- What the family says of an instruction. -/
def EncodedLength.Statement (i : Instr) : Prop :=
  ∀ m x : Bool, i.wellFormed m x = true →
    ∃ op, (encode i).head? = some op ∧ (encode i).length = instructionLength m x op

namespace EncodedLength

theorem brk (sig : Byte) : Statement (.brk sig) := fun _ _ _ => ⟨_, rfl, rfl⟩

theorem oraIndDpX (d : Byte) : Statement (.oraIndDpX d) := fun _ _ _ => ⟨_, rfl, rfl⟩

theorem cop (sig : Byte) : Statement (.cop sig) := fun _ _ _ => ⟨_, rfl, rfl⟩

theorem oraSr (d : Byte) : Statement (.oraSr d) := fun _ _ _ => ⟨_, rfl, rfl⟩

theorem tsbDp (d : Byte) : Statement (.tsbDp d) := fun _ _ _ => ⟨_, rfl, rfl⟩

theorem oraDp (d : Byte) : Statement (.oraDp d) := fun _ _ _ => ⟨_, rfl, rfl⟩

theorem aslDp (d : Byte) : Statement (.aslDp d) := fun _ _ _ => ⟨_, rfl, rfl⟩

theorem oraLongIndDp (d : Byte) : Statement (.oraLongIndDp d) := fun _ _ _ => ⟨_, rfl, rfl⟩

theorem php : Statement .php := fun _ _ _ => ⟨_, rfl, rfl⟩

theorem oraImm (imm : Imm) : Statement (.oraImm imm) := by
  cases imm <;> rintro (_ | _) (_ | _) h <;> first | exact ⟨_, rfl, rfl⟩ | cases h

theorem aslAcc : Statement .aslAcc := fun _ _ _ => ⟨_, rfl, rfl⟩

theorem phd : Statement .phd := fun _ _ _ => ⟨_, rfl, rfl⟩

theorem tsbAbs (a : Word) : Statement (.tsbAbs a) := fun _ _ _ => ⟨_, rfl, rfl⟩

theorem oraAbs (a : Word) : Statement (.oraAbs a) := fun _ _ _ => ⟨_, rfl, rfl⟩

theorem aslAbs (a : Word) : Statement (.aslAbs a) := fun _ _ _ => ⟨_, rfl, rfl⟩

theorem oraLong (a : Addr) : Statement (.oraLong a) := fun _ _ _ => ⟨_, rfl, rfl⟩

theorem bpl (r : Byte) : Statement (.bpl r) := fun _ _ _ => ⟨_, rfl, rfl⟩

theorem oraIndDpY (d : Byte) : Statement (.oraIndDpY d) := fun _ _ _ => ⟨_, rfl, rfl⟩

theorem oraIndDp (d : Byte) : Statement (.oraIndDp d) := fun _ _ _ => ⟨_, rfl, rfl⟩

theorem oraIndSrY (d : Byte) : Statement (.oraIndSrY d) := fun _ _ _ => ⟨_, rfl, rfl⟩

theorem trbDp (d : Byte) : Statement (.trbDp d) := fun _ _ _ => ⟨_, rfl, rfl⟩

theorem oraDpX (d : Byte) : Statement (.oraDpX d) := fun _ _ _ => ⟨_, rfl, rfl⟩

theorem aslDpX (d : Byte) : Statement (.aslDpX d) := fun _ _ _ => ⟨_, rfl, rfl⟩

theorem oraLongIndDpY (d : Byte) : Statement (.oraLongIndDpY d) := fun _ _ _ => ⟨_, rfl, rfl⟩

theorem clc : Statement .clc := fun _ _ _ => ⟨_, rfl, rfl⟩

theorem oraAbsY (a : Word) : Statement (.oraAbsY a) := fun _ _ _ => ⟨_, rfl, rfl⟩

theorem incAcc : Statement .incAcc := fun _ _ _ => ⟨_, rfl, rfl⟩

theorem tcs : Statement .tcs := fun _ _ _ => ⟨_, rfl, rfl⟩

theorem trbAbs (a : Word) : Statement (.trbAbs a) := fun _ _ _ => ⟨_, rfl, rfl⟩

theorem oraAbsX (a : Word) : Statement (.oraAbsX a) := fun _ _ _ => ⟨_, rfl, rfl⟩

theorem aslAbsX (a : Word) : Statement (.aslAbsX a) := fun _ _ _ => ⟨_, rfl, rfl⟩

theorem oraLongX (a : Addr) : Statement (.oraLongX a) := fun _ _ _ => ⟨_, rfl, rfl⟩

theorem jsrAbs (a : Word) : Statement (.jsrAbs a) := fun _ _ _ => ⟨_, rfl, rfl⟩

theorem andIndDpX (d : Byte) : Statement (.andIndDpX d) := fun _ _ _ => ⟨_, rfl, rfl⟩

theorem jsl (a : Addr) : Statement (.jsl a) := fun _ _ _ => ⟨_, rfl, rfl⟩

theorem andSr (d : Byte) : Statement (.andSr d) := fun _ _ _ => ⟨_, rfl, rfl⟩

theorem bitDp (d : Byte) : Statement (.bitDp d) := fun _ _ _ => ⟨_, rfl, rfl⟩

theorem andDp (d : Byte) : Statement (.andDp d) := fun _ _ _ => ⟨_, rfl, rfl⟩

theorem rolDp (d : Byte) : Statement (.rolDp d) := fun _ _ _ => ⟨_, rfl, rfl⟩

theorem andLongIndDp (d : Byte) : Statement (.andLongIndDp d) := fun _ _ _ => ⟨_, rfl, rfl⟩

theorem plp : Statement .plp := fun _ _ _ => ⟨_, rfl, rfl⟩

theorem andImm (imm : Imm) : Statement (.andImm imm) := by
  cases imm <;> rintro (_ | _) (_ | _) h <;> first | exact ⟨_, rfl, rfl⟩ | cases h

theorem rolAcc : Statement .rolAcc := fun _ _ _ => ⟨_, rfl, rfl⟩

theorem pld : Statement .pld := fun _ _ _ => ⟨_, rfl, rfl⟩

theorem bitAbs (a : Word) : Statement (.bitAbs a) := fun _ _ _ => ⟨_, rfl, rfl⟩

theorem andAbs (a : Word) : Statement (.andAbs a) := fun _ _ _ => ⟨_, rfl, rfl⟩

theorem rolAbs (a : Word) : Statement (.rolAbs a) := fun _ _ _ => ⟨_, rfl, rfl⟩

theorem andLong (a : Addr) : Statement (.andLong a) := fun _ _ _ => ⟨_, rfl, rfl⟩

theorem bmi (r : Byte) : Statement (.bmi r) := fun _ _ _ => ⟨_, rfl, rfl⟩

theorem andIndDpY (d : Byte) : Statement (.andIndDpY d) := fun _ _ _ => ⟨_, rfl, rfl⟩

theorem andIndDp (d : Byte) : Statement (.andIndDp d) := fun _ _ _ => ⟨_, rfl, rfl⟩

theorem andIndSrY (d : Byte) : Statement (.andIndSrY d) := fun _ _ _ => ⟨_, rfl, rfl⟩

theorem bitDpX (d : Byte) : Statement (.bitDpX d) := fun _ _ _ => ⟨_, rfl, rfl⟩

theorem andDpX (d : Byte) : Statement (.andDpX d) := fun _ _ _ => ⟨_, rfl, rfl⟩

theorem rolDpX (d : Byte) : Statement (.rolDpX d) := fun _ _ _ => ⟨_, rfl, rfl⟩

theorem andLongIndDpY (d : Byte) : Statement (.andLongIndDpY d) := fun _ _ _ => ⟨_, rfl, rfl⟩

theorem sec : Statement .sec := fun _ _ _ => ⟨_, rfl, rfl⟩

theorem andAbsY (a : Word) : Statement (.andAbsY a) := fun _ _ _ => ⟨_, rfl, rfl⟩

theorem decAcc : Statement .decAcc := fun _ _ _ => ⟨_, rfl, rfl⟩

theorem tsc : Statement .tsc := fun _ _ _ => ⟨_, rfl, rfl⟩

theorem bitAbsX (a : Word) : Statement (.bitAbsX a) := fun _ _ _ => ⟨_, rfl, rfl⟩

theorem andAbsX (a : Word) : Statement (.andAbsX a) := fun _ _ _ => ⟨_, rfl, rfl⟩

theorem rolAbsX (a : Word) : Statement (.rolAbsX a) := fun _ _ _ => ⟨_, rfl, rfl⟩

theorem andLongX (a : Addr) : Statement (.andLongX a) := fun _ _ _ => ⟨_, rfl, rfl⟩

theorem rti : Statement .rti := fun _ _ _ => ⟨_, rfl, rfl⟩

theorem eorIndDpX (d : Byte) : Statement (.eorIndDpX d) := fun _ _ _ => ⟨_, rfl, rfl⟩

theorem wdm (imm : Byte) : Statement (.wdm imm) := fun _ _ _ => ⟨_, rfl, rfl⟩

theorem eorSr (d : Byte) : Statement (.eorSr d) := fun _ _ _ => ⟨_, rfl, rfl⟩

theorem mvp (dst : Byte) (src : Byte) : Statement (.mvp dst src) := fun _ _ _ => ⟨_, rfl, rfl⟩

theorem eorDp (d : Byte) : Statement (.eorDp d) := fun _ _ _ => ⟨_, rfl, rfl⟩

theorem lsrDp (d : Byte) : Statement (.lsrDp d) := fun _ _ _ => ⟨_, rfl, rfl⟩

theorem eorLongIndDp (d : Byte) : Statement (.eorLongIndDp d) := fun _ _ _ => ⟨_, rfl, rfl⟩

theorem pha : Statement .pha := fun _ _ _ => ⟨_, rfl, rfl⟩

theorem eorImm (imm : Imm) : Statement (.eorImm imm) := by
  cases imm <;> rintro (_ | _) (_ | _) h <;> first | exact ⟨_, rfl, rfl⟩ | cases h

theorem lsrAcc : Statement .lsrAcc := fun _ _ _ => ⟨_, rfl, rfl⟩

theorem phk : Statement .phk := fun _ _ _ => ⟨_, rfl, rfl⟩

theorem jmpAbs (a : Word) : Statement (.jmpAbs a) := fun _ _ _ => ⟨_, rfl, rfl⟩

theorem eorAbs (a : Word) : Statement (.eorAbs a) := fun _ _ _ => ⟨_, rfl, rfl⟩

theorem lsrAbs (a : Word) : Statement (.lsrAbs a) := fun _ _ _ => ⟨_, rfl, rfl⟩

theorem eorLong (a : Addr) : Statement (.eorLong a) := fun _ _ _ => ⟨_, rfl, rfl⟩

theorem bvc (r : Byte) : Statement (.bvc r) := fun _ _ _ => ⟨_, rfl, rfl⟩

theorem eorIndDpY (d : Byte) : Statement (.eorIndDpY d) := fun _ _ _ => ⟨_, rfl, rfl⟩

theorem eorIndDp (d : Byte) : Statement (.eorIndDp d) := fun _ _ _ => ⟨_, rfl, rfl⟩

theorem eorIndSrY (d : Byte) : Statement (.eorIndSrY d) := fun _ _ _ => ⟨_, rfl, rfl⟩

theorem mvn (dst : Byte) (src : Byte) : Statement (.mvn dst src) := fun _ _ _ => ⟨_, rfl, rfl⟩

theorem eorDpX (d : Byte) : Statement (.eorDpX d) := fun _ _ _ => ⟨_, rfl, rfl⟩

theorem lsrDpX (d : Byte) : Statement (.lsrDpX d) := fun _ _ _ => ⟨_, rfl, rfl⟩

theorem eorLongIndDpY (d : Byte) : Statement (.eorLongIndDpY d) := fun _ _ _ => ⟨_, rfl, rfl⟩

theorem cli : Statement .cli := fun _ _ _ => ⟨_, rfl, rfl⟩

theorem eorAbsY (a : Word) : Statement (.eorAbsY a) := fun _ _ _ => ⟨_, rfl, rfl⟩

theorem phy : Statement .phy := fun _ _ _ => ⟨_, rfl, rfl⟩

theorem tcd : Statement .tcd := fun _ _ _ => ⟨_, rfl, rfl⟩

theorem jmlLong (a : Addr) : Statement (.jmlLong a) := fun _ _ _ => ⟨_, rfl, rfl⟩

theorem eorAbsX (a : Word) : Statement (.eorAbsX a) := fun _ _ _ => ⟨_, rfl, rfl⟩

theorem lsrAbsX (a : Word) : Statement (.lsrAbsX a) := fun _ _ _ => ⟨_, rfl, rfl⟩

theorem eorLongX (a : Addr) : Statement (.eorLongX a) := fun _ _ _ => ⟨_, rfl, rfl⟩

theorem rts : Statement .rts := fun _ _ _ => ⟨_, rfl, rfl⟩

theorem adcIndDpX (d : Byte) : Statement (.adcIndDpX d) := fun _ _ _ => ⟨_, rfl, rfl⟩

theorem per (r : Word) : Statement (.per r) := fun _ _ _ => ⟨_, rfl, rfl⟩

theorem adcSr (d : Byte) : Statement (.adcSr d) := fun _ _ _ => ⟨_, rfl, rfl⟩

theorem stzDp (d : Byte) : Statement (.stzDp d) := fun _ _ _ => ⟨_, rfl, rfl⟩

theorem adcDp (d : Byte) : Statement (.adcDp d) := fun _ _ _ => ⟨_, rfl, rfl⟩

theorem rorDp (d : Byte) : Statement (.rorDp d) := fun _ _ _ => ⟨_, rfl, rfl⟩

theorem adcLongIndDp (d : Byte) : Statement (.adcLongIndDp d) := fun _ _ _ => ⟨_, rfl, rfl⟩

theorem pla : Statement .pla := fun _ _ _ => ⟨_, rfl, rfl⟩

theorem adcImm (imm : Imm) : Statement (.adcImm imm) := by
  cases imm <;> rintro (_ | _) (_ | _) h <;> first | exact ⟨_, rfl, rfl⟩ | cases h

theorem rorAcc : Statement .rorAcc := fun _ _ _ => ⟨_, rfl, rfl⟩

theorem rtl : Statement .rtl := fun _ _ _ => ⟨_, rfl, rfl⟩

theorem jmpInd (a : Word) : Statement (.jmpInd a) := fun _ _ _ => ⟨_, rfl, rfl⟩

theorem adcAbs (a : Word) : Statement (.adcAbs a) := fun _ _ _ => ⟨_, rfl, rfl⟩

theorem rorAbs (a : Word) : Statement (.rorAbs a) := fun _ _ _ => ⟨_, rfl, rfl⟩

theorem adcLong (a : Addr) : Statement (.adcLong a) := fun _ _ _ => ⟨_, rfl, rfl⟩

theorem bvs (r : Byte) : Statement (.bvs r) := fun _ _ _ => ⟨_, rfl, rfl⟩

theorem adcIndDpY (d : Byte) : Statement (.adcIndDpY d) := fun _ _ _ => ⟨_, rfl, rfl⟩

theorem adcIndDp (d : Byte) : Statement (.adcIndDp d) := fun _ _ _ => ⟨_, rfl, rfl⟩

theorem adcIndSrY (d : Byte) : Statement (.adcIndSrY d) := fun _ _ _ => ⟨_, rfl, rfl⟩

theorem stzDpX (d : Byte) : Statement (.stzDpX d) := fun _ _ _ => ⟨_, rfl, rfl⟩

theorem adcDpX (d : Byte) : Statement (.adcDpX d) := fun _ _ _ => ⟨_, rfl, rfl⟩

theorem rorDpX (d : Byte) : Statement (.rorDpX d) := fun _ _ _ => ⟨_, rfl, rfl⟩

theorem adcLongIndDpY (d : Byte) : Statement (.adcLongIndDpY d) := fun _ _ _ => ⟨_, rfl, rfl⟩

theorem sei : Statement .sei := fun _ _ _ => ⟨_, rfl, rfl⟩

theorem adcAbsY (a : Word) : Statement (.adcAbsY a) := fun _ _ _ => ⟨_, rfl, rfl⟩

theorem ply : Statement .ply := fun _ _ _ => ⟨_, rfl, rfl⟩

theorem tdc : Statement .tdc := fun _ _ _ => ⟨_, rfl, rfl⟩

theorem jmpIndX (a : Word) : Statement (.jmpIndX a) := fun _ _ _ => ⟨_, rfl, rfl⟩

theorem adcAbsX (a : Word) : Statement (.adcAbsX a) := fun _ _ _ => ⟨_, rfl, rfl⟩

theorem rorAbsX (a : Word) : Statement (.rorAbsX a) := fun _ _ _ => ⟨_, rfl, rfl⟩

theorem adcLongX (a : Addr) : Statement (.adcLongX a) := fun _ _ _ => ⟨_, rfl, rfl⟩

theorem bra (r : Byte) : Statement (.bra r) := fun _ _ _ => ⟨_, rfl, rfl⟩

theorem staIndDpX (d : Byte) : Statement (.staIndDpX d) := fun _ _ _ => ⟨_, rfl, rfl⟩

theorem brl (r : Word) : Statement (.brl r) := fun _ _ _ => ⟨_, rfl, rfl⟩

theorem staSr (d : Byte) : Statement (.staSr d) := fun _ _ _ => ⟨_, rfl, rfl⟩

theorem styDp (d : Byte) : Statement (.styDp d) := fun _ _ _ => ⟨_, rfl, rfl⟩

theorem staDp (d : Byte) : Statement (.staDp d) := fun _ _ _ => ⟨_, rfl, rfl⟩

theorem stxDp (d : Byte) : Statement (.stxDp d) := fun _ _ _ => ⟨_, rfl, rfl⟩

theorem staLongIndDp (d : Byte) : Statement (.staLongIndDp d) := fun _ _ _ => ⟨_, rfl, rfl⟩

theorem dey : Statement .dey := fun _ _ _ => ⟨_, rfl, rfl⟩

theorem bitImm (imm : Imm) : Statement (.bitImm imm) := by
  cases imm <;> rintro (_ | _) (_ | _) h <;> first | exact ⟨_, rfl, rfl⟩ | cases h

theorem txa : Statement .txa := fun _ _ _ => ⟨_, rfl, rfl⟩

theorem phb : Statement .phb := fun _ _ _ => ⟨_, rfl, rfl⟩

theorem styAbs (a : Word) : Statement (.styAbs a) := fun _ _ _ => ⟨_, rfl, rfl⟩

theorem staAbs (a : Word) : Statement (.staAbs a) := fun _ _ _ => ⟨_, rfl, rfl⟩

theorem stxAbs (a : Word) : Statement (.stxAbs a) := fun _ _ _ => ⟨_, rfl, rfl⟩

theorem staLong (a : Addr) : Statement (.staLong a) := fun _ _ _ => ⟨_, rfl, rfl⟩

theorem bcc (r : Byte) : Statement (.bcc r) := fun _ _ _ => ⟨_, rfl, rfl⟩

theorem staIndDpY (d : Byte) : Statement (.staIndDpY d) := fun _ _ _ => ⟨_, rfl, rfl⟩

theorem staIndDp (d : Byte) : Statement (.staIndDp d) := fun _ _ _ => ⟨_, rfl, rfl⟩

theorem staIndSrY (d : Byte) : Statement (.staIndSrY d) := fun _ _ _ => ⟨_, rfl, rfl⟩

theorem styDpX (d : Byte) : Statement (.styDpX d) := fun _ _ _ => ⟨_, rfl, rfl⟩

theorem staDpX (d : Byte) : Statement (.staDpX d) := fun _ _ _ => ⟨_, rfl, rfl⟩

theorem stxDpY (d : Byte) : Statement (.stxDpY d) := fun _ _ _ => ⟨_, rfl, rfl⟩

theorem staLongIndDpY (d : Byte) : Statement (.staLongIndDpY d) := fun _ _ _ => ⟨_, rfl, rfl⟩

theorem tya : Statement .tya := fun _ _ _ => ⟨_, rfl, rfl⟩

theorem staAbsY (a : Word) : Statement (.staAbsY a) := fun _ _ _ => ⟨_, rfl, rfl⟩

theorem txs : Statement .txs := fun _ _ _ => ⟨_, rfl, rfl⟩

theorem txy : Statement .txy := fun _ _ _ => ⟨_, rfl, rfl⟩

theorem stzAbs (a : Word) : Statement (.stzAbs a) := fun _ _ _ => ⟨_, rfl, rfl⟩

theorem staAbsX (a : Word) : Statement (.staAbsX a) := fun _ _ _ => ⟨_, rfl, rfl⟩

theorem stzAbsX (a : Word) : Statement (.stzAbsX a) := fun _ _ _ => ⟨_, rfl, rfl⟩

theorem staLongX (a : Addr) : Statement (.staLongX a) := fun _ _ _ => ⟨_, rfl, rfl⟩

theorem ldyImm (imm : Imm) : Statement (.ldyImm imm) := by
  cases imm <;> rintro (_ | _) (_ | _) h <;> first | exact ⟨_, rfl, rfl⟩ | cases h

theorem ldaIndDpX (d : Byte) : Statement (.ldaIndDpX d) := fun _ _ _ => ⟨_, rfl, rfl⟩

theorem ldxImm (imm : Imm) : Statement (.ldxImm imm) := by
  cases imm <;> rintro (_ | _) (_ | _) h <;> first | exact ⟨_, rfl, rfl⟩ | cases h

theorem ldaSr (d : Byte) : Statement (.ldaSr d) := fun _ _ _ => ⟨_, rfl, rfl⟩

theorem ldyDp (d : Byte) : Statement (.ldyDp d) := fun _ _ _ => ⟨_, rfl, rfl⟩

theorem ldaDp (d : Byte) : Statement (.ldaDp d) := fun _ _ _ => ⟨_, rfl, rfl⟩

theorem ldxDp (d : Byte) : Statement (.ldxDp d) := fun _ _ _ => ⟨_, rfl, rfl⟩

theorem ldaLongIndDp (d : Byte) : Statement (.ldaLongIndDp d) := fun _ _ _ => ⟨_, rfl, rfl⟩

theorem tay : Statement .tay := fun _ _ _ => ⟨_, rfl, rfl⟩

theorem ldaImm (imm : Imm) : Statement (.ldaImm imm) := by
  cases imm <;> rintro (_ | _) (_ | _) h <;> first | exact ⟨_, rfl, rfl⟩ | cases h

theorem tax : Statement .tax := fun _ _ _ => ⟨_, rfl, rfl⟩

theorem plb : Statement .plb := fun _ _ _ => ⟨_, rfl, rfl⟩

theorem ldyAbs (a : Word) : Statement (.ldyAbs a) := fun _ _ _ => ⟨_, rfl, rfl⟩

theorem ldaAbs (a : Word) : Statement (.ldaAbs a) := fun _ _ _ => ⟨_, rfl, rfl⟩

theorem ldxAbs (a : Word) : Statement (.ldxAbs a) := fun _ _ _ => ⟨_, rfl, rfl⟩

theorem ldaLong (a : Addr) : Statement (.ldaLong a) := fun _ _ _ => ⟨_, rfl, rfl⟩

theorem bcs (r : Byte) : Statement (.bcs r) := fun _ _ _ => ⟨_, rfl, rfl⟩

theorem ldaIndDpY (d : Byte) : Statement (.ldaIndDpY d) := fun _ _ _ => ⟨_, rfl, rfl⟩

theorem ldaIndDp (d : Byte) : Statement (.ldaIndDp d) := fun _ _ _ => ⟨_, rfl, rfl⟩

theorem ldaIndSrY (d : Byte) : Statement (.ldaIndSrY d) := fun _ _ _ => ⟨_, rfl, rfl⟩

theorem ldyDpX (d : Byte) : Statement (.ldyDpX d) := fun _ _ _ => ⟨_, rfl, rfl⟩

theorem ldaDpX (d : Byte) : Statement (.ldaDpX d) := fun _ _ _ => ⟨_, rfl, rfl⟩

theorem ldxDpY (d : Byte) : Statement (.ldxDpY d) := fun _ _ _ => ⟨_, rfl, rfl⟩

theorem ldaLongIndDpY (d : Byte) : Statement (.ldaLongIndDpY d) := fun _ _ _ => ⟨_, rfl, rfl⟩

theorem clv : Statement .clv := fun _ _ _ => ⟨_, rfl, rfl⟩

theorem ldaAbsY (a : Word) : Statement (.ldaAbsY a) := fun _ _ _ => ⟨_, rfl, rfl⟩

theorem tsx : Statement .tsx := fun _ _ _ => ⟨_, rfl, rfl⟩

theorem tyx : Statement .tyx := fun _ _ _ => ⟨_, rfl, rfl⟩

theorem ldyAbsX (a : Word) : Statement (.ldyAbsX a) := fun _ _ _ => ⟨_, rfl, rfl⟩

theorem ldaAbsX (a : Word) : Statement (.ldaAbsX a) := fun _ _ _ => ⟨_, rfl, rfl⟩

theorem ldxAbsY (a : Word) : Statement (.ldxAbsY a) := fun _ _ _ => ⟨_, rfl, rfl⟩

theorem ldaLongX (a : Addr) : Statement (.ldaLongX a) := fun _ _ _ => ⟨_, rfl, rfl⟩

theorem cpyImm (imm : Imm) : Statement (.cpyImm imm) := by
  cases imm <;> rintro (_ | _) (_ | _) h <;> first | exact ⟨_, rfl, rfl⟩ | cases h

theorem cmpIndDpX (d : Byte) : Statement (.cmpIndDpX d) := fun _ _ _ => ⟨_, rfl, rfl⟩

theorem rep (imm : Byte) : Statement (.rep imm) := fun _ _ _ => ⟨_, rfl, rfl⟩

theorem cmpSr (d : Byte) : Statement (.cmpSr d) := fun _ _ _ => ⟨_, rfl, rfl⟩

theorem cpyDp (d : Byte) : Statement (.cpyDp d) := fun _ _ _ => ⟨_, rfl, rfl⟩

theorem cmpDp (d : Byte) : Statement (.cmpDp d) := fun _ _ _ => ⟨_, rfl, rfl⟩

theorem decDp (d : Byte) : Statement (.decDp d) := fun _ _ _ => ⟨_, rfl, rfl⟩

theorem cmpLongIndDp (d : Byte) : Statement (.cmpLongIndDp d) := fun _ _ _ => ⟨_, rfl, rfl⟩

theorem iny : Statement .iny := fun _ _ _ => ⟨_, rfl, rfl⟩

theorem cmpImm (imm : Imm) : Statement (.cmpImm imm) := by
  cases imm <;> rintro (_ | _) (_ | _) h <;> first | exact ⟨_, rfl, rfl⟩ | cases h

theorem dex : Statement .dex := fun _ _ _ => ⟨_, rfl, rfl⟩

theorem wai : Statement .wai := fun _ _ _ => ⟨_, rfl, rfl⟩

theorem cpyAbs (a : Word) : Statement (.cpyAbs a) := fun _ _ _ => ⟨_, rfl, rfl⟩

theorem cmpAbs (a : Word) : Statement (.cmpAbs a) := fun _ _ _ => ⟨_, rfl, rfl⟩

theorem decAbs (a : Word) : Statement (.decAbs a) := fun _ _ _ => ⟨_, rfl, rfl⟩

theorem cmpLong (a : Addr) : Statement (.cmpLong a) := fun _ _ _ => ⟨_, rfl, rfl⟩

theorem bne (r : Byte) : Statement (.bne r) := fun _ _ _ => ⟨_, rfl, rfl⟩

theorem cmpIndDpY (d : Byte) : Statement (.cmpIndDpY d) := fun _ _ _ => ⟨_, rfl, rfl⟩

theorem cmpIndDp (d : Byte) : Statement (.cmpIndDp d) := fun _ _ _ => ⟨_, rfl, rfl⟩

theorem cmpIndSrY (d : Byte) : Statement (.cmpIndSrY d) := fun _ _ _ => ⟨_, rfl, rfl⟩

theorem pei (d : Byte) : Statement (.pei d) := fun _ _ _ => ⟨_, rfl, rfl⟩

theorem cmpDpX (d : Byte) : Statement (.cmpDpX d) := fun _ _ _ => ⟨_, rfl, rfl⟩

theorem decDpX (d : Byte) : Statement (.decDpX d) := fun _ _ _ => ⟨_, rfl, rfl⟩

theorem cmpLongIndDpY (d : Byte) : Statement (.cmpLongIndDpY d) := fun _ _ _ => ⟨_, rfl, rfl⟩

theorem cld : Statement .cld := fun _ _ _ => ⟨_, rfl, rfl⟩

theorem cmpAbsY (a : Word) : Statement (.cmpAbsY a) := fun _ _ _ => ⟨_, rfl, rfl⟩

theorem phx : Statement .phx := fun _ _ _ => ⟨_, rfl, rfl⟩

theorem stp : Statement .stp := fun _ _ _ => ⟨_, rfl, rfl⟩

theorem jmlLongInd (a : Word) : Statement (.jmlLongInd a) := fun _ _ _ => ⟨_, rfl, rfl⟩

theorem cmpAbsX (a : Word) : Statement (.cmpAbsX a) := fun _ _ _ => ⟨_, rfl, rfl⟩

theorem decAbsX (a : Word) : Statement (.decAbsX a) := fun _ _ _ => ⟨_, rfl, rfl⟩

theorem cmpLongX (a : Addr) : Statement (.cmpLongX a) := fun _ _ _ => ⟨_, rfl, rfl⟩

theorem cpxImm (imm : Imm) : Statement (.cpxImm imm) := by
  cases imm <;> rintro (_ | _) (_ | _) h <;> first | exact ⟨_, rfl, rfl⟩ | cases h

theorem sbcIndDpX (d : Byte) : Statement (.sbcIndDpX d) := fun _ _ _ => ⟨_, rfl, rfl⟩

theorem sep (imm : Byte) : Statement (.sep imm) := fun _ _ _ => ⟨_, rfl, rfl⟩

theorem sbcSr (d : Byte) : Statement (.sbcSr d) := fun _ _ _ => ⟨_, rfl, rfl⟩

theorem cpxDp (d : Byte) : Statement (.cpxDp d) := fun _ _ _ => ⟨_, rfl, rfl⟩

theorem sbcDp (d : Byte) : Statement (.sbcDp d) := fun _ _ _ => ⟨_, rfl, rfl⟩

theorem incDp (d : Byte) : Statement (.incDp d) := fun _ _ _ => ⟨_, rfl, rfl⟩

theorem sbcLongIndDp (d : Byte) : Statement (.sbcLongIndDp d) := fun _ _ _ => ⟨_, rfl, rfl⟩

theorem inx : Statement .inx := fun _ _ _ => ⟨_, rfl, rfl⟩

theorem sbcImm (imm : Imm) : Statement (.sbcImm imm) := by
  cases imm <;> rintro (_ | _) (_ | _) h <;> first | exact ⟨_, rfl, rfl⟩ | cases h

theorem nop : Statement .nop := fun _ _ _ => ⟨_, rfl, rfl⟩

theorem xba : Statement .xba := fun _ _ _ => ⟨_, rfl, rfl⟩

theorem cpxAbs (a : Word) : Statement (.cpxAbs a) := fun _ _ _ => ⟨_, rfl, rfl⟩

theorem sbcAbs (a : Word) : Statement (.sbcAbs a) := fun _ _ _ => ⟨_, rfl, rfl⟩

theorem incAbs (a : Word) : Statement (.incAbs a) := fun _ _ _ => ⟨_, rfl, rfl⟩

theorem sbcLong (a : Addr) : Statement (.sbcLong a) := fun _ _ _ => ⟨_, rfl, rfl⟩

theorem beq (r : Byte) : Statement (.beq r) := fun _ _ _ => ⟨_, rfl, rfl⟩

theorem sbcIndDpY (d : Byte) : Statement (.sbcIndDpY d) := fun _ _ _ => ⟨_, rfl, rfl⟩

theorem sbcIndDp (d : Byte) : Statement (.sbcIndDp d) := fun _ _ _ => ⟨_, rfl, rfl⟩

theorem sbcIndSrY (d : Byte) : Statement (.sbcIndSrY d) := fun _ _ _ => ⟨_, rfl, rfl⟩

theorem pea (imm : Word) : Statement (.pea imm) := fun _ _ _ => ⟨_, rfl, rfl⟩

theorem sbcDpX (d : Byte) : Statement (.sbcDpX d) := fun _ _ _ => ⟨_, rfl, rfl⟩

theorem incDpX (d : Byte) : Statement (.incDpX d) := fun _ _ _ => ⟨_, rfl, rfl⟩

theorem sbcLongIndDpY (d : Byte) : Statement (.sbcLongIndDpY d) := fun _ _ _ => ⟨_, rfl, rfl⟩

theorem sed : Statement .sed := fun _ _ _ => ⟨_, rfl, rfl⟩

theorem sbcAbsY (a : Word) : Statement (.sbcAbsY a) := fun _ _ _ => ⟨_, rfl, rfl⟩

theorem plx : Statement .plx := fun _ _ _ => ⟨_, rfl, rfl⟩

theorem xce : Statement .xce := fun _ _ _ => ⟨_, rfl, rfl⟩

theorem jsrIndX (a : Word) : Statement (.jsrIndX a) := fun _ _ _ => ⟨_, rfl, rfl⟩

theorem sbcAbsX (a : Word) : Statement (.sbcAbsX a) := fun _ _ _ => ⟨_, rfl, rfl⟩

theorem incAbsX (a : Word) : Statement (.incAbsX a) := fun _ _ _ => ⟨_, rfl, rfl⟩

theorem sbcLongX (a : Addr) : Statement (.sbcLongX a) := fun _ _ _ => ⟨_, rfl, rfl⟩

end EncodedLength

end Sys2Proof.Laws
end

