-- ==== Sys2Proof/Laws/Step.lean ====
section
/-! SUPPORT. What one step is, case by case: which command it runs and on which state. -/

namespace Sys2Proof.Machine

open Sys2Proof.Claims

/-- With no input pending a step is a `Step` command. -/
theorem step_command {s : State} (h : s.live = true) (e : s.inputs = []) : step s = stepCommand s := by
  simp only [step, e, runInput, h, if_true]

/-- With an input pending a step runs that input. -/
theorem step_input {s : State} {i : Input} {rest : List Input} (e : s.inputs = i :: rest) :
    step s = runInput i (s.setInputs rest) := by
  simp only [step, e]

theorem runInput_step {s : State} (h : s.live = true) : runInput .step s = stepCommand s := by
  simp only [runInput, h, if_true]

theorem runInput_nmi {s : State} (h : s.live = true) : runInput .nmi s = .next (nmiCommand s) := by
  simp only [runInput, h, if_true]

theorem runInput_irq {s : State} (h : s.live = true) : runInput .irq s = .next (irqCommand s) := by
  simp only [runInput, h, if_true]

/-- A `Step` of a running core looks at the opcode at `PBR:PC` (`30_encoding.md` R90). -/
theorem stepCommand_running {s : State} (h : s.run = .running) :
    stepCommand s = stepRunning (byteIn s s.PBR s.PC) (s.setBus []) := by
  simp only [stepCommand, h, if_true]
  rfl

/-- A `Step` of a core that does not run changes the outputs alone (`10_state.md` R38). -/
theorem stepCommand_sleeping {s : State} (h : s.run ≠ .running) :
    stepCommand s = .next { s with bus := [], out := .step s.params.cycMin .ok } := by
  simp only [stepCommand, h, if_false]
  rfl

/-- An opcode outside `SUPPORTED` is consumed and reported (`60_exceptions.md` R361). -/
theorem stepRunning_unsupported {op : Byte} {s : State} (h : s.params.supported op = false) :
    stepRunning op s = .next { s with
      PC := s.PC + 1, bus := s.bus ++ pairReads s s.PBR s.PC 1, out := .step s.params.cycMin (.unsupported op) } := by
  simp only [stepRunning, h, reportUnsupported, fetchBytes_eq]
  rfl

/-- A core that is not stopped takes an `Nmi` (`60_exceptions.md` R366). -/
theorem nmiCommand_taken {s : State} (h : s.run ≠ .stopped) :
    nmiCommand s =
      interrupt s.params.vecNativeNmi s.params.vecEmulationNmi s.PC { s with bus := [], out := .nothing } := by
  simp only [nmiCommand, h, if_false]
  rfl

/-- When an `Irq` is taken (`60_exceptions.md` R367, D22). -/
theorem irqTaken_iff (s : State) : irqTaken s = true ↔
    (s.run = .running ∨ s.run = .halted ∧ s.params.irqWakesWait = true) ∧ s.flag .I = false := by
  cases h : s.run <;> simp [irqTaken, h]

theorem irqCommand_taken {s : State} (h : irqTaken s = true) :
    irqCommand s =
      interrupt s.params.vecNativeIrq s.params.vecEmulationIrqBrk s.PC { s with bus := [], out := .irq true } := by
  simp only [irqCommand, h, if_true]
  rfl

theorem irqCommand_refused {s : State} (h : irqTaken s = false) :
    irqCommand s = { s with bus := [], out := .irq false } := by
  simp only [irqCommand, h]
  rfl

end Sys2Proof.Machine
end

