-- ==== Sys2Proof/Tests/Slice0.lean ====
section
/-! SUPPORT. The model's own tests: the check of well-formedness, the decoding of every constructor's word, one-step
tests on the vectors V<n> of `spec/95_test_vectors.md`, and for every statement with hypotheses a concrete case that
meets them. Expected values are the spec's. -/

namespace Sys2Proof.Tests

open Sys2Proof.Machine Sys2Proof.Claims

/-! ## Well-formedness: each check refuses its ill-formed term (`30_encoding.md` R91, R92) -/

theorem test_word_immediate_refused_while_m_narrow : (Instr.ldaImm (.word 0x1234)).wellFormed true false = false := by
  decide

theorem test_byte_immediate_refused_while_m_wide : (Instr.adcImm (.byte 0x12)).wellFormed false true = false := by
  decide

theorem test_word_immediate_refused_while_x_narrow : (Instr.ldxImm (.word 0x1234)).wellFormed false true = false := by
  decide

theorem test_byte_immediate_refused_while_x_wide : (Instr.cpyImm (.byte 0x12)).wellFormed true false = false := by
  decide

/-! ## Decoding (`30_encoding.md` R91 to R94): the opcode, then the bytes 34 12 7E -/

/-- What the decoder reads from `op 34 12 7E`. -/
def reads (m x : Bool) (op : Byte) : Option Instr := (decode m x [op, 0x34, 0x12, 0x7E]).toOption

theorem test_decode_row_0 : (List.range 16).map (fun k => reads true true (BitVec.ofNat 8 (0x00 + k))) = [
    some (.brk 0x34), some (.oraIndDpX 0x34), some (.cop 0x34), some (.oraSr 0x34), some (.tsbDp 0x34),
    some (.oraDp 0x34), some (.aslDp 0x34), some (.oraLongIndDp 0x34), some .php, some (.oraImm (.byte 0x34)),
    some .aslAcc, some .phd, some (.tsbAbs 0x1234), some (.oraAbs 0x1234), some (.aslAbs 0x1234),
    some (.oraLong 0x7E1234)] := by decide

theorem test_decode_row_1 : (List.range 16).map (fun k => reads true true (BitVec.ofNat 8 (0x10 + k))) = [
    some (.bpl 0x34), some (.oraIndDpY 0x34), some (.oraIndDp 0x34), some (.oraIndSrY 0x34), some (.trbDp 0x34),
    some (.oraDpX 0x34), some (.aslDpX 0x34), some (.oraLongIndDpY 0x34), some .clc, some (.oraAbsY 0x1234),
    some .incAcc, some .tcs, some (.trbAbs 0x1234), some (.oraAbsX 0x1234), some (.aslAbsX 0x1234),
    some (.oraLongX 0x7E1234)] := by decide

theorem test_decode_row_2 : (List.range 16).map (fun k => reads true true (BitVec.ofNat 8 (0x20 + k))) = [
    some (.jsrAbs 0x1234), some (.andIndDpX 0x34), some (.jsl 0x7E1234), some (.andSr 0x34), some (.bitDp 0x34),
    some (.andDp 0x34), some (.rolDp 0x34), some (.andLongIndDp 0x34), some .plp, some (.andImm (.byte 0x34)),
    some .rolAcc, some .pld, some (.bitAbs 0x1234), some (.andAbs 0x1234), some (.rolAbs 0x1234),
    some (.andLong 0x7E1234)] := by decide

theorem test_decode_row_3 : (List.range 16).map (fun k => reads true true (BitVec.ofNat 8 (0x30 + k))) = [
    some (.bmi 0x34), some (.andIndDpY 0x34), some (.andIndDp 0x34), some (.andIndSrY 0x34), some (.bitDpX 0x34),
    some (.andDpX 0x34), some (.rolDpX 0x34), some (.andLongIndDpY 0x34), some .sec, some (.andAbsY 0x1234),
    some .decAcc, some .tsc, some (.bitAbsX 0x1234), some (.andAbsX 0x1234), some (.rolAbsX 0x1234),
    some (.andLongX 0x7E1234)] := by decide

theorem test_decode_row_4 : (List.range 16).map (fun k => reads true true (BitVec.ofNat 8 (0x40 + k))) = [
    some .rti, some (.eorIndDpX 0x34), some (.wdm 0x34), some (.eorSr 0x34), some (.mvp 0x34 0x12),
    some (.eorDp 0x34), some (.lsrDp 0x34), some (.eorLongIndDp 0x34), some .pha, some (.eorImm (.byte 0x34)),
    some .lsrAcc, some .phk, some (.jmpAbs 0x1234), some (.eorAbs 0x1234), some (.lsrAbs 0x1234),
    some (.eorLong 0x7E1234)] := by decide

theorem test_decode_row_5 : (List.range 16).map (fun k => reads true true (BitVec.ofNat 8 (0x50 + k))) = [
    some (.bvc 0x34), some (.eorIndDpY 0x34), some (.eorIndDp 0x34), some (.eorIndSrY 0x34), some (.mvn 0x34 0x12),
    some (.eorDpX 0x34), some (.lsrDpX 0x34), some (.eorLongIndDpY 0x34), some .cli, some (.eorAbsY 0x1234),
    some .phy, some .tcd, some (.jmlLong 0x7E1234), some (.eorAbsX 0x1234), some (.lsrAbsX 0x1234),
    some (.eorLongX 0x7E1234)] := by decide

theorem test_decode_row_6 : (List.range 16).map (fun k => reads true true (BitVec.ofNat 8 (0x60 + k))) = [
    some .rts, some (.adcIndDpX 0x34), some (.per 0x1234), some (.adcSr 0x34), some (.stzDp 0x34), some (.adcDp 0x34),
    some (.rorDp 0x34), some (.adcLongIndDp 0x34), some .pla, some (.adcImm (.byte 0x34)), some .rorAcc, some .rtl,
    some (.jmpInd 0x1234), some (.adcAbs 0x1234), some (.rorAbs 0x1234), some (.adcLong 0x7E1234)] := by decide

theorem test_decode_row_7 : (List.range 16).map (fun k => reads true true (BitVec.ofNat 8 (0x70 + k))) = [
    some (.bvs 0x34), some (.adcIndDpY 0x34), some (.adcIndDp 0x34), some (.adcIndSrY 0x34), some (.stzDpX 0x34),
    some (.adcDpX 0x34), some (.rorDpX 0x34), some (.adcLongIndDpY 0x34), some .sei, some (.adcAbsY 0x1234),
    some .ply, some .tdc, some (.jmpIndX 0x1234), some (.adcAbsX 0x1234), some (.rorAbsX 0x1234),
    some (.adcLongX 0x7E1234)] := by decide

theorem test_decode_row_8 : (List.range 16).map (fun k => reads true true (BitVec.ofNat 8 (0x80 + k))) = [
    some (.bra 0x34), some (.staIndDpX 0x34), some (.brl 0x1234), some (.staSr 0x34), some (.styDp 0x34),
    some (.staDp 0x34), some (.stxDp 0x34), some (.staLongIndDp 0x34), some .dey, some (.bitImm (.byte 0x34)),
    some .txa, some .phb, some (.styAbs 0x1234), some (.staAbs 0x1234), some (.stxAbs 0x1234),
    some (.staLong 0x7E1234)] := by decide

theorem test_decode_row_9 : (List.range 16).map (fun k => reads true true (BitVec.ofNat 8 (0x90 + k))) = [
    some (.bcc 0x34), some (.staIndDpY 0x34), some (.staIndDp 0x34), some (.staIndSrY 0x34), some (.styDpX 0x34),
    some (.staDpX 0x34), some (.stxDpY 0x34), some (.staLongIndDpY 0x34), some .tya, some (.staAbsY 0x1234),
    some .txs, some .txy, some (.stzAbs 0x1234), some (.staAbsX 0x1234), some (.stzAbsX 0x1234),
    some (.staLongX 0x7E1234)] := by decide

theorem test_decode_row_A : (List.range 16).map (fun k => reads true true (BitVec.ofNat 8 (0xA0 + k))) = [
    some (.ldyImm (.byte 0x34)), some (.ldaIndDpX 0x34), some (.ldxImm (.byte 0x34)), some (.ldaSr 0x34),
    some (.ldyDp 0x34), some (.ldaDp 0x34), some (.ldxDp 0x34), some (.ldaLongIndDp 0x34), some .tay,
    some (.ldaImm (.byte 0x34)), some .tax, some .plb, some (.ldyAbs 0x1234), some (.ldaAbs 0x1234),
    some (.ldxAbs 0x1234), some (.ldaLong 0x7E1234)] := by decide

theorem test_decode_row_B : (List.range 16).map (fun k => reads true true (BitVec.ofNat 8 (0xB0 + k))) = [
    some (.bcs 0x34), some (.ldaIndDpY 0x34), some (.ldaIndDp 0x34), some (.ldaIndSrY 0x34), some (.ldyDpX 0x34),
    some (.ldaDpX 0x34), some (.ldxDpY 0x34), some (.ldaLongIndDpY 0x34), some .clv, some (.ldaAbsY 0x1234),
    some .tsx, some .tyx, some (.ldyAbsX 0x1234), some (.ldaAbsX 0x1234), some (.ldxAbsY 0x1234),
    some (.ldaLongX 0x7E1234)] := by decide

theorem test_decode_row_C : (List.range 16).map (fun k => reads true true (BitVec.ofNat 8 (0xC0 + k))) = [
    some (.cpyImm (.byte 0x34)), some (.cmpIndDpX 0x34), some (.rep 0x34), some (.cmpSr 0x34), some (.cpyDp 0x34),
    some (.cmpDp 0x34), some (.decDp 0x34), some (.cmpLongIndDp 0x34), some .iny, some (.cmpImm (.byte 0x34)),
    some .dex, some .wai, some (.cpyAbs 0x1234), some (.cmpAbs 0x1234), some (.decAbs 0x1234),
    some (.cmpLong 0x7E1234)] := by decide

theorem test_decode_row_D : (List.range 16).map (fun k => reads true true (BitVec.ofNat 8 (0xD0 + k))) = [
    some (.bne 0x34), some (.cmpIndDpY 0x34), some (.cmpIndDp 0x34), some (.cmpIndSrY 0x34), some (.pei 0x34),
    some (.cmpDpX 0x34), some (.decDpX 0x34), some (.cmpLongIndDpY 0x34), some .cld, some (.cmpAbsY 0x1234),
    some .phx, some .stp, some (.jmlLongInd 0x1234), some (.cmpAbsX 0x1234), some (.decAbsX 0x1234),
    some (.cmpLongX 0x7E1234)] := by decide

theorem test_decode_row_E : (List.range 16).map (fun k => reads true true (BitVec.ofNat 8 (0xE0 + k))) = [
    some (.cpxImm (.byte 0x34)), some (.sbcIndDpX 0x34), some (.sep 0x34), some (.sbcSr 0x34), some (.cpxDp 0x34),
    some (.sbcDp 0x34), some (.incDp 0x34), some (.sbcLongIndDp 0x34), some .inx, some (.sbcImm (.byte 0x34)),
    some .nop, some .xba, some (.cpxAbs 0x1234), some (.sbcAbs 0x1234), some (.incAbs 0x1234),
    some (.sbcLong 0x7E1234)] := by decide

theorem test_decode_row_F : (List.range 16).map (fun k => reads true true (BitVec.ofNat 8 (0xF0 + k))) = [
    some (.beq 0x34), some (.sbcIndDpY 0x34), some (.sbcIndDp 0x34), some (.sbcIndSrY 0x34), some (.pea 0x1234),
    some (.sbcDpX 0x34), some (.incDpX 0x34), some (.sbcLongIndDpY 0x34), some .sed, some (.sbcAbsY 0x1234),
    some .plx, some .xce, some (.jsrIndX 0x1234), some (.sbcAbsX 0x1234), some (.incAbsX 0x1234),
    some (.sbcLongX 0x7E1234)] := by decide

theorem test_decode_wide_immediates_of_m : [0x09, 0x29, 0x49, 0x69, 0x89, 0xA9, 0xC9, 0xE9].map (reads false true) = [
    some (.oraImm (.word 0x1234)), some (.andImm (.word 0x1234)), some (.eorImm (.word 0x1234)),
    some (.adcImm (.word 0x1234)), some (.bitImm (.word 0x1234)), some (.ldaImm (.word 0x1234)),
    some (.cmpImm (.word 0x1234)), some (.sbcImm (.word 0x1234))] := by decide

theorem test_decode_wide_immediates_of_x : [0xA0, 0xA2, 0xC0, 0xE0].map (reads true false) = [
    some (.ldyImm (.word 0x1234)), some (.ldxImm (.word 0x1234)), some (.cpyImm (.word 0x1234)),
    some (.cpxImm (.word 0x1234))] := by decide

/-- One word of each family written bit by bit, bit 7 of each byte first. -/
theorem test_decode_bits :
    (decode true true [0b10101101, 0b00000000, 0b00100000]).toOption = some (.ldaAbs 0x2000) ∧
    (decode true true [0b10010111, 0b11111110]).toOption = some (.staLongIndDpY 0xFE) ∧
    (decode true true [0b10101010]).toOption = some .tax ∧
    (decode true true [0b11110100, 0b11001101, 0b10101011]).toOption = some (.pea 0xABCD) ∧
    (decode true true [0b01000100, 0b01111111, 0b00000001]).toOption = some (.mvp 0x7F 0x01) ∧
    (decode false true [0b01101001, 0b00000001, 0b10000000]).toOption = some (.adcImm (.word 0x8001)) ∧
    (decode true true [0b01010011, 0b00000101]).toOption = some (.eorIndSrY 0x05) ∧
    (decode true true [0b01101110, 0b00000001, 0b00000010]).toOption = some (.rorAbs 0x0201) ∧
    (decode true true [0b10000010, 0b11111111, 0b01111111]).toOption = some (.brl 0x7FFF) ∧
    (decode true true [0b00100010, 0b01010110, 0b00110100, 0b00010010]).toOption = some (.jsl 0x123456) ∧
    (decode true true [0b11000010, 0b00110000]).toOption = some (.rep 0x30) ∧
    (decode true true [0b00000000, 0b00000011]).toOption = some (.brk 0x03) := by decide

theorem test_no_bytes_refused : (decode true true []).toOption = none := by decide

theorem test_missing_operand_refused : (decode true true [0xAD, 0x00]).toOption = none := by decide

theorem test_encode_long_low_byte_first : encode (.jmlLong 0x123456) = [0x5C, 0x56, 0x34, 0x12] := by decide

/-- The first byte is in the table's low bits. -/
theorem test_decodeTableWord : decodeTableWord 16 0x42A9 = some (.ldaImm (.byte 0x42)) := by decide

/-! ## One step on the spec's vectors -/

/-- The start of the vectors: what their rows leave out is 0, `S` is 0x01FF, `PC` 0x8000, and the parameters are the
defaults. -/
def start : State :=
  { A := 0, X := 0, Y := 0, S := 0x01FF, D := 0, DB := 0, PBR := 0, PC := 0x8000, P := 0, E := false, run := .running,
    mem := [], live := true, inputs := [], out := .nothing, bus := [], params := Config.parameters }

/-- `s` with bytes stored from flat address `k` on. -/
def put (k : Nat) (bs : List Byte) (s : State) : State :=
  match bs with
  | [] => s
  | b :: rest => put (k + 1) rest { s with mem := s.mem.write k b }

/-- The bytes the last command wrote, in order. -/
def writes (s : State) : List (Nat × Byte) :=
  s.bus.filterMap fun
    | .write8 bank off v => some ((Ea.pair bank off).cell, v)
    | .writeFlat24 a v => some (a.toNat, v)
    | .read8 _ _ _ | .readFlat24 _ _ => none

/-- One step from `s` leaves the registers `r`, answers `out`, and writes exactly `ws`, which memory then holds. -/
def stepGives (s : State) (r : Snapshot) (out : Output) (ws : List (Nat × Byte)) : Bool :=
  match step s with
  | .next t => decide (t.snapshot = r) && decide (t.out = out) && decide (writes t = ws) &&
      decide (t.mem = ws.foldl (fun m w => m.write w.1 w.2) s.mem)
  | .fault _ => false
  | .refused _ => false

/-- V1: LDA immediate, 8-bit accumulator: high byte kept, N from bit 7. -/
theorem test_V1_lda_imm : stepGives
    (put 0x008000 [0xA9, 0x80] <|
      { start with A := 0x1200, P := 0x30 })
    { start.snapshot with A := 0x1280, PC := 0x8002, P := 0xB0 } (.step 2 .ok)
    [] = true := by decide

/-- V3: LDA immediate, 16-bit accumulator, zero result. -/
theorem test_V3_lda_imm : stepGives
    (put 0x008000 [0xA9, 0x00, 0x00] <|
      { start with A := 0x1234 })
    { start.snapshot with PC := 0x8003, P := 0x02 } (.step 2 .ok)
    [] = true := by decide

/-- V4: LDA abs, 16-bit, at offset 0xFFFF of bank DB: second byte wraps inside the bank (pair address). -/
theorem test_V4_lda_abs : stepGives
    (put 0x008000 [0xAD, 0xFF, 0xFF] <| put 0x7EFFFF [0x34] <| put 0x7E0000 [0x12] <| put 0x7F0000 [0xEE] <|
      { start with DB := 0x7E })
    { start.snapshot with A := 0x1234, DB := 0x7E, PC := 0x8003 } (.step 4 .ok)
    [] = true := by decide

/-- V5: LDA long, 16-bit, at 7E:FFFF: second byte carries into the next bank (flat address, LONG_CARRY = true). -/
theorem test_V5_lda_long : stepGives
    (put 0x008000 [0xAF, 0xFF, 0xFF, 0x7E] <| put 0x7EFFFF [0x34] <| put 0x7E0000 [0x12] <| put 0x7F0000 [0xEE] <|
      start)
    { start.snapshot with A := 0xEE34, PC := 0x8004, P := 0x80 } (.step 5 .ok)
    [] = true := by decide

/-- V6: LDA long, 16-bit, with LONG_CARRY = false. -/
theorem test_V6_lda_long : stepGives
    (put 0x008000 [0xAF, 0xFF, 0xFF, 0x7E] <| put 0x7EFFFF [0x34] <| put 0x7E0000 [0x12] <| put 0x7F0000 [0xEE] <|
      { start with params := { Config.parameters with longCarry := false } })
    { start.snapshot with A := 0x1234, PC := 0x8004 } (.step 5 .ok)
    [] = true := by decide

/-- V7: LDA abs,X: the indexed sum wraps in 16 bits, bank stays DB. -/
theorem test_V7_lda_abs_x : stepGives
    (put 0x008000 [0xBD, 0xF0, 0xFF] <| put 0x7E0010 [0xCD, 0xAB] <| put 0x7F0010 [0x11, 0x11] <|
      { start with X := 0x0020, DB := 0x7E })
    { start.snapshot with A := 0xABCD, X := 0x0020, DB := 0x7E, PC := 0x8003, P := 0x80 } (.step 4 .ok)
    [] = true := by decide

/-- V8: LDA long,X: the indexed sum carries into the bank. -/
theorem test_V8_lda_long_x : stepGives
    (put 0x008000 [0xBF, 0xF0, 0xFF, 0x7E] <| put 0x7E0010 [0x11, 0x11] <| put 0x7F0010 [0xCD, 0xAB] <|
      { start with X := 0x0020 })
    { start.snapshot with A := 0xABCD, X := 0x0020, PC := 0x8004, P := 0x80 } (.step 5 .ok)
    [] = true := by decide

/-- V10: source Scenario 3: D = 0xFFFF, operand byte 0x01: the effective offset is 0x0000 of bank 0. -/
theorem test_V10_lda_dp : stepGives
    (put 0x008000 [0xA5, 0x01] <| put 0x000000 [0x6B] <| put 0x010000 [0x11] <| put 0x7E0000 [0x22] <|
      { start with D := 0xFFFF, DB := 0x7E, P := 0x30 })
    { start.snapshot with A := 0x006B, D := 0xFFFF, DB := 0x7E, PC := 0x8002, P := 0x30 } (.step 3 .ok)
    [] = true := by decide

/-- V13: LDA (dp,X). -/
theorem test_V13_lda_ind_dp_x : stepGives
    (put 0x008000 [0xA1, 0x10] <| put 0x000114 [0x00, 0x30] <| put 0x7E3000 [0x81] <|
      { start with X := 0x0004, D := 0x0100, DB := 0x7E, P := 0x30 })
    { start.snapshot with A := 0x0081, X := 0x0004, D := 0x0100, DB := 0x7E, PC := 0x8002, P := 0xB0 } (.step 6 .ok)
    [] = true := by decide

/-- V14: LDA (dp),Y: pointer + Y wraps in 16 bits, bank stays DB. -/
theorem test_V14_lda_ind_dp_y : stepGives
    (put 0x008000 [0xB1, 0x10] <| put 0x000010 [0xF8, 0xFF] <| put 0x7E0008 [0x55] <| put 0x7F0008 [0x66] <|
      { start with Y := 0x0010, DB := 0x7E, P := 0x30 })
    { start.snapshot with A := 0x0055, Y := 0x0010, DB := 0x7E, PC := 0x8002, P := 0x30 } (.step 5 .ok)
    [] = true := by decide

/-- V16: LDA [dp],Y: pointer + Y carries into the bank. -/
theorem test_V16_lda_long_ind_dp_y : stepGives
    (put 0x008000 [0xB7, 0x10] <| put 0x000010 [0xF8, 0xFF, 0x12] <| put 0x130008 [0x44] <| put 0x120008 [0x22] <|
      { start with Y := 0x0010, P := 0x30 })
    { start.snapshot with A := 0x0044, Y := 0x0010, PC := 0x8002, P := 0x30 } (.step 6 .ok)
    [] = true := by decide

/-- V18: LDA (sr,S),Y. -/
theorem test_V18_lda_ind_sr_y : stepGives
    (put 0x008000 [0xB3, 0x01] <| put 0x001FF1 [0x00, 0x50] <| put 0x7E5002 [0xC3] <|
      { start with Y := 0x0002, S := 0x1FF0, DB := 0x7E, P := 0x30 })
    { start.snapshot with A := 0x00C3, Y := 0x0002, S := 0x1FF0, DB := 0x7E, PC := 0x8002, P := 0xB0 } (.step 7 .ok)
    [] = true := by decide

/-- V19: LDX immediate with 16-bit index. -/
theorem test_V19_ldx_imm : stepGives
    (put 0x008000 [0xA2, 0x00, 0x80] <|
      start)
    { start.snapshot with X := 0x8000, PC := 0x8003, P := 0x80 } (.step 2 .ok)
    [] = true := by decide

/-- V21: LDY dp,X. -/
theorem test_V21_ldy_dp_x : stepGives
    (put 0x008000 [0xB4, 0x10] <| put 0x000012 [0x01, 0x00] <|
      { start with X := 0x0002 })
    { start.snapshot with X := 0x0002, Y := 0x0001, PC := 0x8002 } (.step 4 .ok)
    [] = true := by decide

/-- V22: LDX dp,Y. -/
theorem test_V22_ldx_dp_y : stepGives
    (put 0x008000 [0xB6, 0x10] <| put 0x000013 [0xFF] <|
      { start with Y := 0x0003, P := 0x30 })
    { start.snapshot with X := 0x00FF, Y := 0x0003, PC := 0x8002, P := 0xB0 } (.step 4 .ok)
    [] = true := by decide

/-- V23: STA abs, 16-bit: low byte first, then high. -/
theorem test_V23_sta_abs : stepGives
    (put 0x008000 [0x8D, 0x00, 0x20] <|
      { start with A := 0xBEEF, DB := 0x7E })
    { start.snapshot with A := 0xBEEF, DB := 0x7E, PC := 0x8003 } (.step 4 .ok)
    [(0x7E2000, 0xEF), (0x7E2001, 0xBE)] = true := by decide

/-- V25: STA long,X. -/
theorem test_V25_sta_long_x : stepGives
    (put 0x008000 [0x9F, 0xFF, 0xFF, 0x7E] <|
      { start with A := 0x00AA, X := 0x0001, P := 0x30 })
    { start.snapshot with A := 0x00AA, X := 0x0001, PC := 0x8004, P := 0x30 } (.step 5 .ok)
    [(0x7F0000, 0xAA)] = true := by decide

/-- V26: STA (dp),Y. -/
theorem test_V26_sta_ind_dp_y : stepGives
    (put 0x008000 [0x91, 0x20] <| put 0x000020 [0x00, 0x60] <|
      { start with A := 0x0011, Y := 0x0001, DB := 0x01, P := 0x30 })
    { start.snapshot with A := 0x0011, Y := 0x0001, DB := 0x01, PC := 0x8002, P := 0x30 } (.step 6 .ok)
    [(0x016001, 0x11)] = true := by decide

/-- V27: STZ abs, 16-bit. -/
theorem test_V27_stz_abs : stepGives
    (put 0x008000 [0x9C, 0x00, 0x20] <| put 0x002000 [0xAA, 0xBB] <|
      { start with A := 0xFFFF })
    { start.snapshot with A := 0xFFFF, PC := 0x8003 } (.step 4 .ok)
    [(0x002000, 0x00), (0x002001, 0x00)] = true := by decide

/-- V28: STX dp, 16-bit index. -/
theorem test_V28_stx_dp : stepGives
    (put 0x008000 [0x86, 0x10] <|
      { start with X := 0x1234, D := 0x0200 })
    { start.snapshot with X := 0x1234, D := 0x0200, PC := 0x8002 } (.step 3 .ok)
    [(0x000210, 0x34), (0x000211, 0x12)] = true := by decide

/-- V29: STY abs, 8-bit index. -/
theorem test_V29_sty_abs : stepGives
    (put 0x008000 [0x8C, 0x00, 0x21] <|
      { start with Y := 0x0056, P := 0x30 })
    { start.snapshot with Y := 0x0056, PC := 0x8003, P := 0x30 } (.step 4 .ok)
    [(0x002100, 0x56)] = true := by decide

/-- V31: TAX, 8-bit accumulator, 16-bit index: all 16 bits of A are copied. -/
theorem test_V31_tax : stepGives
    (put 0x008000 [0xAA] <|
      { start with A := 0x1234, P := 0x20 })
    { start.snapshot with A := 0x1234, X := 0x1234, PC := 0x8001, P := 0x20 } (.step 2 .ok)
    [] = true := by decide

/-- V33: TAY zero. -/
theorem test_V33_tay : stepGives
    (put 0x008000 [0xA8] <|
      { start with A := 0x1200, Y := 0x0055, P := 0x30 })
    { start.snapshot with A := 0x1200, PC := 0x8001, P := 0x32 } (.step 2 .ok)
    [] = true := by decide

/-- V34: TXA, 8-bit accumulator, 16-bit index: A high byte kept. -/
theorem test_V34_txa : stepGives
    (put 0x008000 [0x8A] <|
      { start with A := 0xAB00, X := 0x1234, P := 0x20 })
    { start.snapshot with A := 0xAB34, X := 0x1234, PC := 0x8001, P := 0x20 } (.step 2 .ok)
    [] = true := by decide

/-- V36: TYA. -/
theorem test_V36_tya : stepGives
    (put 0x008000 [0x98] <|
      { start with Y := 0x8000 })
    { start.snapshot with A := 0x8000, Y := 0x8000, PC := 0x8001, P := 0x80 } (.step 2 .ok)
    [] = true := by decide

/-- V37: TXY. -/
theorem test_V37_txy : stepGives
    (put 0x008000 [0x9B] <|
      { start with X := 0x00FF, P := 0x30 })
    { start.snapshot with X := 0x00FF, Y := 0x00FF, PC := 0x8001, P := 0xB0 } (.step 2 .ok)
    [] = true := by decide

/-- V38: TYX. -/
theorem test_V38_tyx : stepGives
    (put 0x008000 [0xBB] <|
      { start with X := 0x1111 })
    { start.snapshot with PC := 0x8001, P := 0x02 } (.step 2 .ok)
    [] = true := by decide

/-- V40: TSX, 16-bit index. -/
theorem test_V40_tsx : stepGives
    (put 0x008000 [0xBA] <|
      { start with S := 0x1FFC })
    { start.snapshot with X := 0x1FFC, S := 0x1FFC, PC := 0x8001 } (.step 2 .ok)
    [] = true := by decide

/-- V41: TXS in emulation mode: high byte of S forced to 0x01, no flags. -/
theorem test_V41_txs : stepGives
    (put 0x008000 [0x9A] <|
      { start with X := 0x0080, P := 0x30, E := true })
    { start.snapshot with X := 0x0080, S := 0x0180, PC := 0x8001, P := 0x30, E := true } (.step 2 .ok)
    [] = true := by decide

/-- V44: TCS in emulation mode: clamp. -/
theorem test_V44_tcs : stepGives
    (put 0x008000 [0x1B] <|
      { start with A := 0x2345, P := 0x30, E := true })
    { start.snapshot with A := 0x2345, S := 0x0145, PC := 0x8001, P := 0x30, E := true } (.step 2 .ok)
    [] = true := by decide

/-- V46: TSC: 16 bits whatever P.M. -/
theorem test_V46_tsc : stepGives
    (put 0x008000 [0x3B] <|
      { start with A := 0xAAAA, P := 0x30 })
    { start.snapshot with A := 0x01FF, PC := 0x8001, P := 0x30 } (.step 2 .ok)
    [] = true := by decide

/-- V47: TCD: 16 bits whatever P.M, N from bit 15. -/
theorem test_V47_tcd : stepGives
    (put 0x008000 [0x5B] <|
      { start with A := 0x8000, P := 0x30 })
    { start.snapshot with A := 0x8000, D := 0x8000, PC := 0x8001, P := 0xB0 } (.step 2 .ok)
    [] = true := by decide

/-- V48: TDC zero. -/
theorem test_V48_tdc : stepGives
    (put 0x008000 [0x7B] <|
      { start with A := 0x1234, P := 0x30 })
    { start.snapshot with PC := 0x8001, P := 0x32 } (.step 2 .ok)
    [] = true := by decide

/-- V50: PHA, 16-bit: high byte at the higher address, pushed first. -/
theorem test_V50_pha : stepGives
    (put 0x008000 [0x48] <|
      { start with A := 0x12AB, S := 0x1FFF })
    { start.snapshot with A := 0x12AB, S := 0x1FFD, PC := 0x8001 } (.step 3 .ok)
    [(0x001FFF, 0x12), (0x001FFE, 0xAB)] = true := by decide

/-- V51: PLA, 16-bit: low byte pulled first. -/
theorem test_V51_pla : stepGives
    (put 0x008000 [0x68] <| put 0x001FFE [0x00, 0x80] <|
      { start with S := 0x1FFD })
    { start.snapshot with A := 0x8000, S := 0x1FFF, PC := 0x8001, P := 0x80 } (.step 4 .ok)
    [] = true := by decide

/-- V53: PHX / 16-bit. -/
theorem test_V53_phx : stepGives
    (put 0x008000 [0xDA] <|
      { start with X := 0xCAFE, S := 0x1FFF })
    { start.snapshot with X := 0xCAFE, S := 0x1FFD, PC := 0x8001 } (.step 3 .ok)
    [(0x001FFF, 0xCA), (0x001FFE, 0xFE)] = true := by decide

/-- V54: PHY / 8-bit. -/
theorem test_V54_phy : stepGives
    (put 0x008000 [0x5A] <|
      { start with Y := 0x00FE, P := 0x30 })
    { start.snapshot with Y := 0x00FE, S := 0x01FE, PC := 0x8001, P := 0x30 } (.step 3 .ok)
    [(0x0001FF, 0xFE)] = true := by decide

/-- V55: PLX, 8-bit. -/
theorem test_V55_plx : stepGives
    (put 0x008000 [0xFA] <| put 0x0001FF [0x80] <|
      { start with S := 0x01FE, P := 0x30 })
    { start.snapshot with X := 0x0080, PC := 0x8001, P := 0xB0 } (.step 4 .ok)
    [] = true := by decide

/-- V56: PLY, 16-bit. -/
theorem test_V56_ply : stepGives
    (put 0x008000 [0x7A] <| put 0x0001FE [0x34, 0x12] <|
      { start with S := 0x01FD })
    { start.snapshot with Y := 0x1234, PC := 0x8001 } (.step 4 .ok)
    [] = true := by decide

/-- V57: PHP pushes P as stored. -/
theorem test_V57_php : stepGives
    (put 0x008000 [0x08] <|
      { start with P := 0xC3 })
    { start.snapshot with S := 0x01FE, PC := 0x8001, P := 0xC3 } (.step 3 .ok)
    [(0x0001FF, 0xC3)] = true := by decide

/-- V59: PLP in native mode narrowing the index: X and Y truncated at once. -/
theorem test_V59_plp : stepGives
    (put 0x008000 [0x28] <| put 0x0001FF [0x10] <|
      { start with X := 0x1234, Y := 0xABCD, S := 0x01FE })
    { start.snapshot with X := 0x0034, Y := 0x00CD, PC := 0x8001, P := 0x10 } (.step 4 .ok)
    [] = true := by decide

/-- V60: PLP in emulation mode: bits 5 and 4 forced to 1. -/
theorem test_V60_plp : stepGives
    (put 0x008000 [0x28] <| put 0x0001FF [0x00] <|
      { start with S := 0x01FE, P := 0x30, E := true })
    { start.snapshot with PC := 0x8001, P := 0x30, E := true } (.step 4 .ok)
    [] = true := by decide

/-- V61: PHB. -/
theorem test_V61_phb : stepGives
    (put 0x008000 [0x8B] <|
      { start with DB := 0x7E, P := 0x30 })
    { start.snapshot with S := 0x01FE, DB := 0x7E, PC := 0x8001, P := 0x30 } (.step 3 .ok)
    [(0x0001FF, 0x7E)] = true := by decide

/-- V62: PLB: flags from 8 bits. -/
theorem test_V62_plb : stepGives
    (put 0x008000 [0xAB] <| put 0x0001FF [0x80] <|
      { start with S := 0x01FE })
    { start.snapshot with DB := 0x80, PC := 0x8001, P := 0x80 } (.step 4 .ok)
    [] = true := by decide

/-- V63: PHK. -/
theorem test_V63_phk : stepGives
    (put 0x058000 [0x4B] <|
      { start with PBR := 0x05, P := 0x30 })
    { start.snapshot with S := 0x01FE, PBR := 0x05, PC := 0x8001, P := 0x30 } (.step 3 .ok)
    [(0x0001FF, 0x05)] = true := by decide

/-- V64: PHD: always 16 bits. -/
theorem test_V64_phd : stepGives
    (put 0x008000 [0x0B] <|
      { start with D := 0x1234, P := 0x30 })
    { start.snapshot with S := 0x01FD, D := 0x1234, PC := 0x8001, P := 0x30 } (.step 4 .ok)
    [(0x0001FF, 0x12), (0x0001FE, 0x34)] = true := by decide

/-- V65: PLD: always 16 bits, flags from 16 bits. -/
theorem test_V65_pld : stepGives
    (put 0x008000 [0x2B] <| put 0x0001FE [0x00, 0x80] <|
      { start with S := 0x01FD, P := 0x30 })
    { start.snapshot with D := 0x8000, PC := 0x8001, P := 0xB0 } (.step 5 .ok)
    [] = true := by decide

/-- V67: PEI. -/
theorem test_V67_pei : stepGives
    (put 0x008000 [0xD4, 0x10] <| put 0x000110 [0xCD, 0xAB] <|
      { start with D := 0x0100, P := 0x30 })
    { start.snapshot with S := 0x01FD, D := 0x0100, PC := 0x8002, P := 0x30 } (.step 6 .ok)
    [(0x0001FF, 0xAB), (0x0001FE, 0xCD)] = true := by decide

/-- V68: PER: pushes PC after the fetch plus the displacement. -/
theorem test_V68_per : stepGives
    (put 0x008000 [0x62, 0x10, 0x00] <|
      { start with P := 0x30 })
    { start.snapshot with S := 0x01FD, PC := 0x8003, P := 0x30 } (.step 6 .ok)
    [(0x0001FF, 0x80), (0x0001FE, 0x13)] = true := by decide

/-- V71: 16-bit push in emulation mode across the wrap (PEA at S = 0x0100): the clamp applies after each byte. -/
theorem test_V71_pea : stepGives
    (put 0x008000 [0xF4, 0x34, 0x12] <|
      { start with S := 0x0100, P := 0x30, E := true })
    { start.snapshot with S := 0x01FE, PC := 0x8003, P := 0x30, E := true } (.step 5 .ok)
    [(0x000100, 0x12), (0x0001FF, 0x34)] = true := by decide

/-- V73: source Scenario 5 made concrete: MVN with count 0x0001 moves one byte and falls through. -/
theorem test_V73_mvn : stepGives
    (put 0x008000 [0x54, 0x7F, 0x7E] <| put 0x7E1000 [0xA5] <|
      { start with A := 0x0001, X := 0x1000, Y := 0x2000 })
    { start.snapshot with X := 0x1001, Y := 0x2001, DB := 0x7F, PC := 0x8003 } (.step 7 .ok)
    [(0x7F2000, 0xA5)] = true := by decide

/-- V75: MVN count 0x0003 after one Step only (`PC` is back at `0x8000`; an interrupt delivered now pushes `0x8000`
and the move resumes after RTI). -/
theorem test_V75_mvn : stepGives
    (put 0x008000 [0x54, 0x7F, 0x7E] <| put 0x7E1000 [0x01, 0x02, 0x03] <|
      { start with A := 0x0003, X := 0x1000, Y := 0x2000 })
    { start.snapshot with A := 0x0002, X := 0x1001, Y := 0x2001, DB := 0x7F } (.step 7 .ok)
    [(0x7F2000, 0x01)] = true := by decide

/-- V78: source law, 8-bit: 0x7F + 0x01, signed overflow. -/
theorem test_V78_adc_imm : stepGives
    (put 0x008000 [0x69, 0x01] <|
      { start with A := 0x007F, P := 0x30 })
    { start.snapshot with A := 0x0080, PC := 0x8002, P := 0xF0 } (.step 2 .ok)
    [] = true := by decide

/-- V85: Decimal flag set: the result is binary (DECIMAL_ARITH = false). -/
theorem test_V85_adc_imm : stepGives
    (put 0x008000 [0x69, 0x01] <|
      { start with A := 0x0009, P := 0x38 })
    { start.snapshot with A := 0x000A, PC := 0x8002, P := 0x38 } (.step 2 .ok)
    [] = true := by decide

/-- V88: SBC 8-bit: 0x50 - 0x10 with C = 0 (borrow in). -/
theorem test_V88_sbc_imm : stepGives
    (put 0x008000 [0xE9, 0x10] <|
      { start with A := 0x0050, P := 0x30 })
    { start.snapshot with A := 0x003F, PC := 0x8002, P := 0x31 } (.step 2 .ok)
    [] = true := by decide

/-- V90: SBC 8-bit: 0x80 - 0x01, signed overflow. -/
theorem test_V90_sbc_imm : stepGives
    (put 0x008000 [0xE9, 0x01] <|
      { start with A := 0x0080, P := 0x31 })
    { start.snapshot with A := 0x007F, PC := 0x8002, P := 0x71 } (.step 2 .ok)
    [] = true := by decide

/-- V97: CMP register smaller: C = 0, N from the difference; A and V unchanged. -/
theorem test_V97_cmp_imm : stepGives
    (put 0x008000 [0xC9, 0x41] <|
      { start with A := 0x0040, P := 0x70 })
    { start.snapshot with A := 0x0040, PC := 0x8002, P := 0xF0 } (.step 2 .ok)
    [] = true := by decide

/-- V99: CMP 16-bit. -/
theorem test_V99_cmp_imm : stepGives
    (put 0x008000 [0xC9, 0x00, 0x20] <|
      { start with A := 0x1000 })
    { start.snapshot with A := 0x1000, PC := 0x8003, P := 0x80 } (.step 2 .ok)
    [] = true := by decide

/-- V101: CPX 16-bit equal. -/
theorem test_V101_cpx_imm : stepGives
    (put 0x008000 [0xE0, 0x34, 0x12] <|
      { start with X := 0x1234 })
    { start.snapshot with X := 0x1234, PC := 0x8003, P := 0x03 } (.step 2 .ok)
    [] = true := by decide

/-- V104: CPY dp 16-bit. -/
theorem test_V104_cpy_dp : stepGives
    (put 0x008000 [0xC4, 0x10] <| put 0x000010 [0x01, 0x00] <|
      start)
    { start.snapshot with PC := 0x8002, P := 0x80 } (.step 3 .ok)
    [] = true := by decide

/-- V105: AND 8-bit to zero; C and V untouched. -/
theorem test_V105_and_imm : stepGives
    (put 0x008000 [0x29, 0x0F] <|
      { start with A := 0x12F0, P := 0x71 })
    { start.snapshot with A := 0x1200, PC := 0x8002, P := 0x73 } (.step 2 .ok)
    [] = true := by decide

/-- V108: ORA 16-bit zero. -/
theorem test_V108_ora_imm : stepGives
    (put 0x008000 [0x09, 0x00, 0x00] <|
      start)
    { start.snapshot with PC := 0x8003, P := 0x02 } (.step 2 .ok)
    [] = true := by decide

/-- V110: EOR 16-bit. -/
theorem test_V110_eor_imm : stepGives
    (put 0x008000 [0x49, 0x00, 0x80] <|
      { start with A := 0x00FF })
    { start.snapshot with A := 0x80FF, PC := 0x8003, P := 0x80 } (.step 2 .ok)
    [] = true := by decide

/-- V112: BIT dp, 16-bit: N from bit 15, V from bit 14. -/
theorem test_V112_bit_dp : stepGives
    (put 0x008000 [0x24, 0x10] <| put 0x000010 [0x00, 0x40] <|
      { start with A := 0x4000 })
    { start.snapshot with A := 0x4000, PC := 0x8002, P := 0x40 } (.step 3 .ok)
    [] = true := by decide

/-- V113: BIT immediate writes N and V (BIT_IMM_WRITES_NV = true). -/
theorem test_V113_bit_imm : stepGives
    (put 0x008000 [0x89, 0xC0] <|
      { start with A := 0x00FF, P := 0x30 })
    { start.snapshot with A := 0x00FF, PC := 0x8002, P := 0xF0 } (.step 2 .ok)
    [] = true := by decide

/-- V114: BIT immediate with BIT_IMM_WRITES_NV = false: Z only. -/
theorem test_V114_bit_imm : stepGives
    (put 0x008000 [0x89, 0xC0] <|
      { start with A := 0x00FF, P := 0x30, params := { Config.parameters with bitImmWritesNV := false } })
    { start.snapshot with A := 0x00FF, PC := 0x8002, P := 0x30 } (.step 2 .ok)
    [] = true := by decide

/-- V115: TSB dp, 8-bit: Z from A AND m (before), memory gets m OR A. -/
theorem test_V115_tsb_dp : stepGives
    (put 0x008000 [0x04, 0x10] <| put 0x000010 [0xF0] <|
      { start with A := 0x000F, P := 0x30 })
    { start.snapshot with A := 0x000F, PC := 0x8002, P := 0x32 } (.step 5 .ok)
    [(0x000010, 0xFF)] = true := by decide

/-- V117: TRB dp, 8-bit: memory gets m AND NOT A. -/
theorem test_V117_trb_dp : stepGives
    (put 0x008000 [0x14, 0x10] <| put 0x000010 [0xFF] <|
      { start with A := 0x000F, P := 0x30 })
    { start.snapshot with A := 0x000F, PC := 0x8002, P := 0x30 } (.step 5 .ok)
    [(0x000010, 0xF0)] = true := by decide

/-- V121: ASL abs, 16-bit: read low, high; write low, high. -/
theorem test_V121_asl_abs : stepGives
    (put 0x008000 [0x0E, 0x00, 0x20] <| put 0x002000 [0x01, 0xC0] <|
      start)
    { start.snapshot with PC := 0x8003, P := 0x81 } (.step 6 .ok)
    [(0x002000, 0x02), (0x002001, 0x80)] = true := by decide

/-- V122: LSR A, 8-bit: bit 0 into C, N = 0. -/
theorem test_V122_lsr_acc : stepGives
    (put 0x008000 [0x4A] <|
      { start with A := 0x0001, P := 0x30 })
    { start.snapshot with PC := 0x8001, P := 0x33 } (.step 2 .ok)
    [] = true := by decide

/-- V124: ROL A, 8-bit, C = 1 in. -/
theorem test_V124_rol_acc : stepGives
    (put 0x008000 [0x2A] <|
      { start with A := 0x0080, P := 0x31 })
    { start.snapshot with A := 0x0001, PC := 0x8001, P := 0x31 } (.step 2 .ok)
    [] = true := by decide

/-- V126: ROR A, 8-bit, C = 1 in: C enters bit 7. -/
theorem test_V126_ror_acc : stepGives
    (put 0x008000 [0x6A] <|
      { start with A := 0x0001, P := 0x31 })
    { start.snapshot with A := 0x0080, PC := 0x8001, P := 0xB1 } (.step 2 .ok)
    [] = true := by decide

/-- V128: ROR dp,X, 8-bit. -/
theorem test_V128_ror_dp_x : stepGives
    (put 0x008000 [0x76, 0x10] <| put 0x000011 [0x01] <|
      { start with X := 0x0001, P := 0x30 })
    { start.snapshot with X := 0x0001, PC := 0x8002, P := 0x33 } (.step 6 .ok)
    [(0x000011, 0x00)] = true := by decide

/-- V129: INC A, 8-bit wrap: 0xFF to 0x00; C untouched. -/
theorem test_V129_inc_acc : stepGives
    (put 0x008000 [0x1A] <|
      { start with A := 0x12FF, P := 0x30 })
    { start.snapshot with A := 0x1200, PC := 0x8001, P := 0x32 } (.step 2 .ok)
    [] = true := by decide

/-- V131: DEC A, 16-bit wrap: 0x0000 to 0xFFFF. -/
theorem test_V131_dec_acc : stepGives
    (put 0x008000 [0x3A] <|
      start)
    { start.snapshot with A := 0xFFFF, PC := 0x8001, P := 0x80 } (.step 2 .ok)
    [] = true := by decide

/-- V134: INX, 8-bit wrap. -/
theorem test_V134_inx : stepGives
    (put 0x008000 [0xE8] <|
      { start with X := 0x00FF, P := 0x30 })
    { start.snapshot with PC := 0x8001, P := 0x32 } (.step 2 .ok)
    [] = true := by decide

/-- V136: INY, 16-bit wrap. -/
theorem test_V136_iny : stepGives
    (put 0x008000 [0xC8] <|
      { start with Y := 0xFFFF })
    { start.snapshot with PC := 0x8001, P := 0x02 } (.step 2 .ok)
    [] = true := by decide

/-- V137: DEX, 8-bit wrap: 0x00 to 0xFF, high byte stays 0. -/
theorem test_V137_dex : stepGives
    (put 0x008000 [0xCA] <|
      { start with P := 0x30 })
    { start.snapshot with X := 0x00FF, PC := 0x8001, P := 0xB0 } (.step 2 .ok)
    [] = true := by decide

/-- V138: DEY, 16-bit to zero. -/
theorem test_V138_dey : stepGives
    (put 0x008000 [0x88] <|
      { start with Y := 0x0001 })
    { start.snapshot with PC := 0x8001, P := 0x02 } (.step 2 .ok)
    [] = true := by decide

/-- V139: BNE taken, backwards. -/
theorem test_V139_bne : stepGives
    (put 0x008010 [0xD0, 0xFC] <|
      { start with PC := 0x8010, P := 0x30 })
    { start.snapshot with PC := 0x800E, P := 0x30 } (.step 2 .ok)
    [] = true := by decide

/-- V141: BEQ taken, forwards. -/
theorem test_V141_beq : stepGives
    (put 0x008000 [0xF0, 0x7F] <|
      { start with P := 0x32 })
    { start.snapshot with PC := 0x8081, P := 0x32 } (.step 2 .ok)
    [] = true := by decide

/-- V142: BPL taken (N = 0). -/
theorem test_V142_bpl : stepGives
    (put 0x008000 [0x10, 0x02] <|
      { start with P := 0x30 })
    { start.snapshot with PC := 0x8004, P := 0x30 } (.step 2 .ok)
    [] = true := by decide

/-- V144: BMI taken (N = 1). -/
theorem test_V144_bmi : stepGives
    (put 0x008000 [0x30, 0x02] <|
      { start with P := 0xB0 })
    { start.snapshot with PC := 0x8004, P := 0xB0 } (.step 2 .ok)
    [] = true := by decide

/-- V145: BVC taken (V = 0). -/
theorem test_V145_bvc : stepGives
    (put 0x008000 [0x50, 0x02] <|
      { start with P := 0x30 })
    { start.snapshot with PC := 0x8004, P := 0x30 } (.step 2 .ok)
    [] = true := by decide

/-- V146: BVS taken (V = 1). -/
theorem test_V146_bvs : stepGives
    (put 0x008000 [0x70, 0x02] <|
      { start with P := 0x70 })
    { start.snapshot with PC := 0x8004, P := 0x70 } (.step 2 .ok)
    [] = true := by decide

/-- V147: BCC not taken (C = 1). -/
theorem test_V147_bcc : stepGives
    (put 0x008000 [0x90, 0x02] <|
      { start with P := 0x31 })
    { start.snapshot with PC := 0x8002, P := 0x31 } (.step 2 .ok)
    [] = true := by decide

/-- V148: BCS taken (C = 1). -/
theorem test_V148_bcs : stepGives
    (put 0x008000 [0xB0, 0x02] <|
      { start with P := 0x31 })
    { start.snapshot with PC := 0x8004, P := 0x31 } (.step 2 .ok)
    [] = true := by decide

/-- V150: BRA at the end of a bank: the target wraps in 16 bits, PBR unchanged. -/
theorem test_V150_bra : stepGives
    (put 0x01FFFD [0x80, 0x10] <|
      { start with PBR := 0x01, PC := 0xFFFD, P := 0x30 })
    { start.snapshot with PBR := 0x01, PC := 0x000F, P := 0x30 } (.step 2 .ok)
    [] = true := by decide

/-- V151: BRL. -/
theorem test_V151_brl : stepGives
    (put 0x008000 [0x82, 0x00, 0x80] <|
      { start with P := 0x30 })
    { start.snapshot with PC := 0x0003, P := 0x30 } (.step 4 .ok)
    [] = true := by decide

/-- V152: JMP abs: bank stays PBR. -/
theorem test_V152_jmp_abs : stepGives
    (put 0x028000 [0x4C, 0x34, 0x12] <|
      { start with PBR := 0x02, P := 0x30 })
    { start.snapshot with PBR := 0x02, PC := 0x1234, P := 0x30 } (.step 3 .ok)
    [] = true := by decide

/-- V153: JMP (abs): pointer read from bank 0 whatever PBR and DB. -/
theorem test_V153_jmp_ind : stepGives
    (put 0x028000 [0x6C, 0x00, 0x30] <| put 0x003000 [0x78, 0x56] <|
      { start with DB := 0x7E, PBR := 0x02, P := 0x30 })
    { start.snapshot with DB := 0x7E, PBR := 0x02, PC := 0x5678, P := 0x30 } (.step 5 .ok)
    [] = true := by decide

/-- V155: JMP (abs,X): pointer read from the program bank. -/
theorem test_V155_jmp_ind_x : stepGives
    (put 0x028000 [0x7C, 0x00, 0x90] <| put 0x029002 [0xCD, 0xAB] <|
      { start with X := 0x0002, PBR := 0x02, P := 0x30 })
    { start.snapshot with X := 0x0002, PBR := 0x02, PC := 0xABCD, P := 0x30 } (.step 6 .ok)
    [] = true := by decide

/-- V156: JML long. -/
theorem test_V156_jml_long : stepGives
    (put 0x008000 [0x5C, 0x56, 0x34, 0x12] <|
      { start with P := 0x30 })
    { start.snapshot with PBR := 0x12, PC := 0x3456, P := 0x30 } (.step 4 .ok)
    [] = true := by decide

/-- V157: JML [abs]. -/
theorem test_V157_jml_long_ind : stepGives
    (put 0x028000 [0xDC, 0x00, 0x30] <| put 0x003000 [0x56, 0x34, 0x12] <|
      { start with PBR := 0x02, P := 0x30 })
    { start.snapshot with PBR := 0x12, PC := 0x3456, P := 0x30 } (.step 6 .ok)
    [] = true := by decide

/-- V158: JSR abs: pushes the address of its own last byte. -/
theorem test_V158_jsr_abs : stepGives
    (put 0x008000 [0x20, 0x00, 0x90] <|
      { start with P := 0x30 })
    { start.snapshot with S := 0x01FD, PC := 0x9000, P := 0x30 } (.step 6 .ok)
    [(0x0001FF, 0x80), (0x0001FE, 0x02)] = true := by decide

/-- V159: JSR (abs,X): operand fetched, return address pushed, then the pointer read. -/
theorem test_V159_jsr_ind_x : stepGives
    (put 0x008000 [0xFC, 0x00, 0x90] <| put 0x009002 [0xCD, 0xAB] <|
      { start with X := 0x0002, P := 0x30 })
    { start.snapshot with X := 0x0002, S := 0x01FD, PC := 0xABCD, P := 0x30 } (.step 8 .ok)
    [(0x0001FF, 0x80), (0x0001FE, 0x02)] = true := by decide

/-- V160: JSL: pushes PBR, then the address of its own last byte. -/
theorem test_V160_jsl : stepGives
    (put 0x018000 [0x22, 0x00, 0x90, 0x05] <|
      { start with S := 0x1FFF, PBR := 0x01, P := 0x30 })
    { start.snapshot with S := 0x1FFC, PBR := 0x05, PC := 0x9000, P := 0x30 } (.step 8 .ok)
    [(0x001FFF, 0x01), (0x001FFE, 0x80), (0x001FFD, 0x03)] = true := by decide

/-- V162: RTS with pulled 0xFFFF: wraps to 0x0000, PBR unchanged. -/
theorem test_V162_rts : stepGives
    (put 0x038000 [0x60] <| put 0x0001FE [0xFF, 0xFF] <|
      { start with S := 0x01FD, PBR := 0x03, P := 0x30 })
    { start.snapshot with PBR := 0x03, PC := 0x0000, P := 0x30 } (.step 6 .ok)
    [] = true := by decide

/-- V163: RTL. -/
theorem test_V163_rtl : stepGives
    (put 0x008000 [0x6B] <| put 0x001FFD [0x03, 0x80, 0x01] <|
      { start with S := 0x1FFC, P := 0x30 })
    { start.snapshot with S := 0x1FFF, PBR := 0x01, PC := 0x8004, P := 0x30 } (.step 6 .ok)
    [] = true := by decide

/-- V164: XCE leaving emulation (boot idiom, C = 0). -/
theorem test_V164_xce : stepGives
    (put 0x008000 [0xFB] <|
      { start with P := 0x34, E := true })
    { start.snapshot with PC := 0x8001, P := 0x35 } (.step 2 .ok)
    [] = true := by decide

/-- V165: XCE entering emulation: widths forced, X and Y truncated, S clamped, A kept. -/
theorem test_V165_xce : stepGives
    (put 0x008000 [0xFB] <|
      { start with A := 0xABCD, X := 0x1234, Y := 0x5678, S := 0x1FF0, P := 0x01 })
    { start.snapshot with
        A := 0xABCD, X := 0x0034, Y := 0x0078, S := 0x01F0, PC := 0x8001, P := 0x30, E := true } (.step 2 .ok)
    [] = true := by decide

/-- V170: REP #0xFF in emulation mode: bits 5 and 4 stay 1. -/
theorem test_V170_rep : stepGives
    (put 0x008000 [0xC2, 0xFF] <|
      { start with P := 0xFF, E := true })
    { start.snapshot with PC := 0x8002, P := 0x30, E := true } (.step 3 .ok)
    [] = true := by decide

/-- V171: SEP #0x10, source truncation law. -/
theorem test_V171_sep : stepGives
    (put 0x008000 [0xE2, 0x10] <|
      { start with X := 0x1234, Y := 0xFF00 })
    { start.snapshot with X := 0x0034, PC := 0x8002, P := 0x10 } (.step 3 .ok)
    [] = true := by decide

/-- V174: CLC. -/
theorem test_V174_clc : stepGives
    (put 0x008000 [0x18] <|
      { start with P := 0x35 })
    { start.snapshot with PC := 0x8001, P := 0x34 } (.step 2 .ok)
    [] = true := by decide

/-- V175: SEC. -/
theorem test_V175_sec : stepGives
    (put 0x008000 [0x38] <|
      { start with P := 0x34 })
    { start.snapshot with PC := 0x8001, P := 0x35 } (.step 2 .ok)
    [] = true := by decide

/-- V176: CLI. -/
theorem test_V176_cli : stepGives
    (put 0x008000 [0x58] <|
      { start with P := 0x34 })
    { start.snapshot with PC := 0x8001, P := 0x30 } (.step 2 .ok)
    [] = true := by decide

/-- V177: SEI. -/
theorem test_V177_sei : stepGives
    (put 0x008000 [0x78] <|
      { start with P := 0x30 })
    { start.snapshot with PC := 0x8001, P := 0x34 } (.step 2 .ok)
    [] = true := by decide

/-- V178: CLD. -/
theorem test_V178_cld : stepGives
    (put 0x008000 [0xD8] <|
      { start with P := 0x3C })
    { start.snapshot with PC := 0x8001, P := 0x34 } (.step 2 .ok)
    [] = true := by decide

/-- V179: SED. -/
theorem test_V179_sed : stepGives
    (put 0x008000 [0xF8] <|
      { start with P := 0x34 })
    { start.snapshot with PC := 0x8001, P := 0x3C } (.step 2 .ok)
    [] = true := by decide

/-- V180: CLV. -/
theorem test_V180_clv : stepGives
    (put 0x008000 [0xB8] <|
      { start with P := 0x74 })
    { start.snapshot with PC := 0x8001, P := 0x34 } (.step 2 .ok)
    [] = true := by decide

/-- V181: NOP. -/
theorem test_V181_nop : stepGives
    (put 0x008000 [0xEA] <|
      { start with P := 0x30 })
    { start.snapshot with PC := 0x8001, P := 0x30 } (.step 2 .ok)
    [] = true := by decide

/-- V182: XBA: flags from the new low byte. -/
theorem test_V182_xba : stepGives
    (put 0x008000 [0xEB] <|
      { start with A := 0x80FF, P := 0x30 })
    { start.snapshot with A := 0xFF80, PC := 0x8001, P := 0xB0 } (.step 3 .ok)
    [] = true := by decide

/-- V184: WDM 0x42 under the default SUPPORTED set: unsupported. -/
theorem test_V184_wdm : stepGives
    (put 0x008000 [0x42, 0xFF] <|
      { start with P := 0x30 })
    { start.snapshot with PC := 0x8001, P := 0x30 } (.step 1 (.unsupported 0x42))
    [] = true := by decide

/-- V185: WDM when 0x42 is configured as supported: two-byte no-op. -/
theorem test_V185_wdm : stepGives
    (put 0x008000 [0x42, 0xFF] <|
      { start with P := 0x30, params := { Config.parameters with unsupported := [] } })
    { start.snapshot with PC := 0x8002, P := 0x30 } (.step 2 .ok)
    [] = true := by decide

/-- V186: BRK in native mode. -/
theorem test_V186_brk : stepGives
    (put 0x018000 [0x00, 0xEA] <| put 0x00FFEE [0x00, 0xA3] <| put 0x00FFFE [0x00, 0xB3] <|
      { start with S := 0x1FFF, PBR := 0x01, P := 0x09 })
    { start.snapshot with S := 0x1FFB, PC := 0xA300, P := 0x05 } (.step 7 .ok)
    [(0x001FFF, 0x01), (0x001FFE, 0x80), (0x001FFD, 0x02), (0x001FFC, 0x09)] = true := by decide

/-- V189: COP in native mode. -/
theorem test_V189_cop : stepGives
    (put 0x018000 [0x02, 0x55] <| put 0x00FFE4 [0x00, 0xA1] <| put 0x00FFF4 [0x00, 0xB1] <|
      { start with S := 0x1FFF, PBR := 0x01 })
    { start.snapshot with S := 0x1FFB, PC := 0xA100, P := 0x04 } (.step 7 .ok)
    [(0x001FFF, 0x01), (0x001FFE, 0x80), (0x001FFD, 0x02), (0x001FFC, 0x00)] = true := by decide

/-- V190: COP in emulation mode. -/
theorem test_V190_cop : stepGives
    (put 0x008000 [0x02, 0x55] <| put 0x00FFE4 [0x00, 0xA1] <| put 0x00FFF4 [0x00, 0xB1] <|
      { start with P := 0x30, E := true })
    { start.snapshot with S := 0x01FC, PC := 0xB100, P := 0x34, E := true } (.step 7 .ok)
    [(0x0001FF, 0x80), (0x0001FE, 0x02), (0x0001FD, 0x30)] = true := by decide

/-- V191: BRK with a non-default VEC_N_BRK. -/
theorem test_V191_brk : stepGives
    (put 0x008000 [0x00, 0xEA] <| put 0x00FFE6 [0x00, 0xA4] <| put 0x00FFEE [0x00, 0xA3] <| put 0x00FFFE [0x00,
      0xB3] <|
      { start with S := 0x1FFF, params := { Config.parameters with vecNativeBrk := 0xFFE6 } })
    { start.snapshot with S := 0x1FFB, PC := 0xA400, P := 0x04 } (.step 7 .ok)
    [(0x001FFF, 0x00), (0x001FFE, 0x80), (0x001FFD, 0x02), (0x001FFC, 0x00)] = true := by decide

/-- V192: RTI in native mode: P, PC, PBR. -/
theorem test_V192_rti : stepGives
    (put 0x008000 [0x40] <| put 0x001FFC [0x09, 0x02, 0x80, 0x01] <|
      { start with S := 0x1FFB, P := 0x04 })
    { start.snapshot with S := 0x1FFF, PBR := 0x01, PC := 0x8002, P := 0x09 } (.step 6 .ok)
    [] = true := by decide

/-- V193: RTI in emulation mode: P (bits 5, 4 forced), PC; PBR not pulled. -/
theorem test_V193_rti : stepGives
    (put 0x008000 [0x40] <| put 0x0001FD [0x08, 0x02, 0x80] <|
      { start with S := 0x01FC, P := 0x34, E := true })
    { start.snapshot with PC := 0x8002, P := 0x38, E := true } (.step 6 .ok)
    [] = true := by decide

/-- V197: Nmi in native mode, Running: the pushed PC is the next instruction. -/
theorem test_V197_nmi : stepGives
    (put 0x00FFEA [0x00, 0xA2] <| put 0x00FFFA [0x00, 0xB2] <|
      { start with inputs := [.nmi], S := 0x1FFF, PBR := 0x01, PC := 0x8123, P := 0x08 })
    { start.snapshot with S := 0x1FFB, PC := 0xA200, P := 0x04 } .nothing
    [(0x001FFF, 0x01), (0x001FFE, 0x81), (0x001FFD, 0x23), (0x001FFC, 0x08)] = true := by decide

/-- V200: Nmi while Halted by WAI. -/
theorem test_V200_nmi : stepGives
    (put 0x00FFEA [0x00, 0xA2] <| put 0x00FFFA [0x00, 0xB2] <|
      { start with inputs := [.nmi], S := 0x1FFF, PC := 0x8001, run := .halted })
    { start.snapshot with S := 0x1FFB, PC := 0xA200, P := 0x04 } .nothing
    [(0x001FFF, 0x00), (0x001FFE, 0x80), (0x001FFD, 0x01), (0x001FFC, 0x00)] = true := by decide

/-- V202: Irq with I = 0, native. -/
theorem test_V202_irq : stepGives
    (put 0x00FFEE [0x00, 0xA3] <| put 0x00FFFE [0x00, 0xB3] <|
      { start with inputs := [.irq], S := 0x1FFF, PBR := 0x01, PC := 0x8123 })
    { start.snapshot with S := 0x1FFB, PC := 0xA300, P := 0x04 } (.irq true)
    [(0x001FFF, 0x01), (0x001FFE, 0x81), (0x001FFD, 0x23), (0x001FFC, 0x00)] = true := by decide

/-- V203: Irq with I = 1: refused, no state change. -/
theorem test_V203_irq : stepGives
    (put 0x00FFEE [0x00, 0xA3] <| put 0x00FFFE [0x00, 0xB3] <|
      { start with inputs := [.irq], S := 0x1FFF, PC := 0x8123, P := 0x04 })
    { start.snapshot with S := 0x1FFF, PC := 0x8123, P := 0x04 } (.irq false)
    [] = true := by decide

/-- V206: Irq while Halted with IRQ_WAKES_WAIT = true and I = 0: taken. -/
theorem test_V206_irq : stepGives
    (put 0x00FFEE [0x00, 0xA3] <| put 0x00FFFE [0x00, 0xB3] <|
      { start with
          inputs := [.irq], S := 0x1FFF, PC := 0x8001, run := .halted, params := { Config.parameters with
          irqWakesWait := true } })
    { start.snapshot with S := 0x1FFB, PC := 0xA300, P := 0x04 } (.irq true)
    [(0x001FFF, 0x00), (0x001FFE, 0x80), (0x001FFD, 0x01), (0x001FFC, 0x00)] = true := by decide

/-- V208: Reset. -/
theorem test_V208_reset : stepGives
    (put 0x00FFFC [0x00, 0x80] <|
      { start with
          inputs := [.reset], A := 0x1234, X := 0x5678, Y := 0x9ABC, S := 0x1000, D := 0x2000, DB := 0x7E,
          PBR := 0x7F, PC := 0x4321, P := 0xC3, run := .stopped })
    { start.snapshot with P := 0x34, E := true } .nothing
    [] = true := by decide

/-- V210: unsupported opcode. -/
theorem test_V210_nop : stepGives
    (put 0x008000 [0xEA, 0xEA] <|
      { start with A := 0x1111, P := 0x30, params := { Config.parameters with unsupported := [0x42, 0xEA] } })
    { start.snapshot with A := 0x1111, PC := 0x8001, P := 0x30 } (.step 1 (.unsupported 0xEA))
    [] = true := by decide

/-- R343, R344: the opcode byte runs, `PC` is past it, the core sleeps. -/
theorem test_wai : stepGives (put 0x008000 [0xCB] start) { start.snapshot with PC := 0x8001, run := .halted }
    (.step 3 .ok) [] = true := by decide

theorem test_stp : stepGives (put 0x008000 [0xDB] start) { start.snapshot with PC := 0x8001, run := .stopped }
    (.step 3 .ok) [] = true := by decide

/-- R212 on the first step of V76's move: addresses go down, destination bank first, `PC` rewound. -/
theorem test_mvp : stepGives
    (put 0x008000 [0x44, 0x7F, 0x7E] <| put 0x7E1001 [0xAA] { start with A := 2, X := 0x1001, Y := 0x2001 })
    { start.snapshot with A := 1, X := 0x1000, Y := 0x2000, DB := 0x7F } (.step 7 .ok)
    [(0x7F2001, 0xAA)] = true := by decide

/-- R41, D34: no command but `Reset` has a meaning before the first `Reset`. -/
theorem test_step_before_reset_refused : step { start with live := false } = .refused .beforeFirstReset := by rfl

/-- R40, R400 on a memory that lists nothing. -/
theorem test_reset_values : State.reset.snapshot =
    { A := 0, X := 0, Y := 0, S := 0x01FF, D := 0, DB := 0, PBR := 0, PC := 0, P := 0x34, E := true, run := .running } := by
  decide

/-- The very next step from reset fetches `A9 42` at `PBR:PC` and runs it. -/
theorem test_withFetchWord_runs_next : stepGives (State.reset.withFetchWord 16 0x42A9)
    { State.reset.snapshot with A := 0x0042, PC := 0x0002 } (.step 2 .ok) [] = true := by decide

/-- R365: with a reset, an NMI and an IRQ due, `Reset` goes first and the `Step` follows. -/
theorem test_reset_before_interrupts : driverInputs ⟨true, true, true, false⟩ = [.reset, .step] := by decide

/-- R60 at the top of the space; writing what an unlisted byte reads as removes the cell (log 1). -/
theorem test_memory_top : (Memory.write [] 0xFFFFFF 0x5A).read 0xFFFFFF = 0x5A ∧
    (Memory.write [(0xFFFFFF, 0x5A)] 0xFFFFFF 0x00) = [] := by decide

/-! ## Witnesses: for each statement with hypotheses, a case that meets them -/

/-- A native state with wide registers that meets the invariant. -/
def wide : State := { start with A := 0x12FF, X := 0xFFFF, Y := 0x8000, S := 0x1FFF, P := 0x01 }

/-- An emulation-mode state at the edge of page 1 that meets the invariant. -/
def emul : State := { start with A := 0x12FF, X := 0x00FF, S := 0x0100, P := 0x30, E := true }

theorem witness_DecodeOfEncode :
    (Instr.ldaImm (.byte 0xFF)).wellFormed true false = true ∧ (Instr.ldaImm (.word 0xFFFF)).wellFormed false true = true ∧
    (Instr.ldxImm (.byte 0x00)).wellFormed false true = true ∧ (Instr.jmlLong 0xFFFFFF).wellFormed true true = true := by
  decide

theorem ok_of_toOption {α ε : Type} {e : Except ε α} {a : α} (h : e.toOption = some a) : e = .ok a := by
  cases e with
  | ok v => exact congrArg Except.ok (Option.some.inj h)
  | error _ => cases h

theorem witness_EncodeOfDecode : decode true true [0xA9, 0x42] = .ok (.ldaImm (.byte 0x42)) := rfl

theorem witness_LoadCompareAndStatusOpcodes :
    ldaForm (.imm (.word 0xFFFF)) = some (0xA9, .ldaImm (.word 0xFFFF)) ∧
    cmpForm (.mem (.indSrY 0xFF)) = some (0xD3, .cmpIndSrY 0xFF) ∧
    cpxForm (.mem (.abs 0)) = some (0xEC, .cpxAbs 0) ∧ cpyForm (.mem (.dp 0)) = some (0xC4, .cpyDp 0) := ⟨rfl, rfl, rfl, rfl⟩

theorem witness_OnlyWidthFlagsChangeLength :
    instructionLength true true 0x09 = 2 ∧ instructionLength false true 0xE9 = 3 ∧
    instructionLength true true 0xA0 = 2 ∧ instructionLength true false 0xE0 = 3 ∧
    instructionLength true true 0x08 = instructionLength false false 0x08 := by decide

/-- At the last offset of a bank, so that the operand byte wraps. -/
def atBankEnd : State := put 0x7E0000 [0x42] <| put 0x7EFFFF [0xA9] { emul with PBR := 0x7E, PC := 0xFFFF }

theorem witness_StepRunsTheDecodedInstruction :
    atBankEnd.Ready ∧ atBankEnd.params.supported (byteIn atBankEnd atBankEnd.PBR atBankEnd.PC) = true ∧
    decode (atBankEnd.flag .M) (atBankEnd.flag .X) atBankEnd.codeBytes = .ok (.ldaImm (.byte 0x42)) :=
  ⟨by decide, by decide, ok_of_toOption (by decide)⟩

theorem witness_StepRunsPlacedInstruction :
    atBankEnd.Ready ∧ (Instr.ldaImm (.byte 0x42)).wellFormed (atBankEnd.flag .M) (atBankEnd.flag .X) = true ∧
    atBankEnd.params.supported (byteIn atBankEnd atBankEnd.PBR atBankEnd.PC) = true ∧
    ∀ k b, (encode (.ldaImm (.byte 0x42)))[k]? = some b →
      byteIn atBankEnd atBankEnd.PBR (atBankEnd.PC + BitVec.ofNat 16 k) = b := by
  have byte0 : byteIn atBankEnd 0x7E 0xFFFF = 0xA9 := by decide
  have byte1 : byteIn atBankEnd 0x7E 0x0000 = 0x42 := by decide
  refine ⟨by decide, by decide, by decide, fun k b h => ?_⟩
  match k with
  | 0 => exact byte0.trans (Option.some.inj h)
  | 1 => exact byte1.trans (Option.some.inj h)
  | k + 2 => simp [encode, immBytes] at h

theorem witness_StepWhileNotRunning :
    ({ start with run := .halted } : State).live = true ∧ ({ start with run := .halted } : State).inputs = [] ∧
    ({ start with run := .stopped } : State).run ≠ .running := by decide

/-- The default, a record that leaves out another opcode, and one that supports `0x42`. -/
theorem witness_UnsupportedOpcodeIsReported :
    let s := put 0x008000 [0xEA] { start with params := { Config.parameters with unsupported := [0xEA] } }
    s.Ready ∧ byteIn s s.PBR s.PC = 0xEA ∧ s.params.supported 0xEA = false ∧ s.params.supported 0x42 = true ∧
    start.params.supported 0x42 = false := by decide

/-- An environment write at the top of the space, a `Step` input, no input, and the three shapes before a reset. -/
theorem witness_FirstInputIsTaken :
    start.mem.wf = true ∧
    ({ start with inputs := [.busWrite 0xFFFFFF 1, .nmi] } : State).inputs = .busWrite 0xFFFFFF 1 :: [.nmi] ∧
    ({ start with inputs := [.step] } : State).inputs = .step :: [] ∧ start.live = true ∧ start.inputs = [] ∧
    ({ start with live := false } : State).live = false ∧ Input.irq ∈ [Input.step, .nmi, .irq] := by decide

theorem witness_EveryStepGoesOn :
    start.live = true ∧ ∃ i rest, ({ start with live := false, inputs := [.reset] } : State).inputs = i :: rest ∧
      (i = .reset ∨ ∃ a v, i = .busWrite a v) := ⟨rfl, .reset, [], rfl, .inl rfl⟩

theorem witness_ResetLeavesTheResetValues :
    ({ start with live := false, inputs := [.reset, .irq] } : State).inputs = .reset :: [.irq] := rfl

theorem witness_NmiEntersUnlessStopped :
    let s : State := { emul with run := .halted, inputs := [.nmi] }
    let u : State := { emul with run := .stopped, inputs := [.nmi] }
    s.live = true ∧ s.inputs = .nmi :: [] ∧ s.mem.wf = true ∧ s.run ≠ .stopped ∧ u.run = .stopped := by decide

/-- States that take the interrupt, running and halted, and one for each reason not to. -/
theorem witness_IrqEntersWhenEnabled :
    let s : State := { wide with inputs := [.irq] }
    let h : State := { s with run := .halted }
    s.live = true ∧ s.inputs = .irq :: [] ∧ s.mem.wf = true ∧ s.run = .running ∧ s.flag .I = false ∧
    ({ s with P := 0x04 } : State).flag .I = true ∧ h.run = .halted ∧ h.params.irqWakesWait = false ∧
    ({ h with params := { h.params with irqWakesWait := true } } : State).params.irqWakesWait = true := by decide

/-- For SoftwareInterruptsEnter, StoresWriteTheRegister, PushesWriteTheStack, BlockMoveMovesOneByte, TestAndSetOrResetBits,
ShiftsMoveOneBit, IncAndDecWrap and CallsPushTheReturnAddress: a canonical memory that lists both ends of the space. -/
theorem witness_canonical_memory : (put 0xFFFFFF [0x5A] (put 0x000000 [0xA5] start)).mem.wf = true := by decide

/-- For RtiUndoesTheEntry, ReturnUndoesCall and XceTwiceRestoresCarryAndMode, in both modes; `sig` is any byte. -/
theorem witness_invariant : wide.Inv ∧ emul.Inv ∧ wide.E = false ∧ emul.E = true ∧ start.flag .C = false ∧
    start.Inv := by decide

theorem witness_SchedulerPriority :
    (Lines.mk false false false true).transferClaims = true ∧ (Lines.mk false false true false).irqPending = true ∧
    (Lines.mk false true true false).nmiPending = true ∧ (Lines.mk true true true false).resetRequested = true := by decide

theorem witness_OnlyWaiAndStpLeaveRunning : wide.run = .running ∧ Instr.nop ≠ .wai ∧ Instr.nop ≠ .stp := by decide

theorem witness_SleepingCoreIsUnchanged :
    let s : State := { emul with run := .halted, inputs := [.irq, .busWrite 0x000123 7, .step] }
    let v : State := { emul with run := .halted, inputs := [.step], params := { emul.params with irqWakesWait := true } }
    let u : State := { emul with run := .stopped, inputs := [.nmi, .irq] }
    s.live = true ∧ .reset ∉ s.inputs ∧ s.run = .halted ∧ .nmi ∉ s.inputs ∧
    (s.params.irqWakesWait = true → .irq ∉ s.inputs) ∧ v.live = true ∧ .reset ∉ v.inputs ∧ v.run = .halted ∧
    .nmi ∉ v.inputs ∧ (v.params.irqWakesWait = true → .irq ∉ v.inputs) ∧ u.live = true ∧ .reset ∉ u.inputs ∧
    u.run = .stopped := by decide

theorem witness_EveryStepKeepsTheInvariant : State.reset.Inv ∧ ∃ t, step State.reset = .next t :=
  ⟨by decide, _, rfl⟩

/-- A narrow accumulator with a wide index; and an instruction that makes `A` narrow. -/
theorem witness_NarrowAccumulatorHighByteIsInert :
    let s : State := { wide with P := 0x20 }
    s.flag .M = true ∧ ¬ UsesHighA (.staAbs 0x1234) (s.flag .X) ∧ (∃ t, exec (.staAbs 0x1234) s = .next t) ∧
    ∃ t, exec (.sep 0x20) wide = .next t ∧ t.flag .M ≠ wide.flag .M := by
  refine ⟨by decide, ?_, ⟨_, rfl⟩, _, rfl, by decide⟩
  rintro (h | ⟨_, _, h | h⟩ | ⟨_, h⟩) <;> simp at h

theorem witness_ControlRegisterWriters :
    (∃ t, exec .nop wide = .next t) ∧ Instr.nop ≠ .xce ∧ Instr.nop ≠ .plb ∧ (∀ dst src, Instr.nop ≠ .mvn dst src) ∧
    (∀ v, Instr.nop ≠ .brk v ∧ Instr.nop ≠ .cop v) ∧ ∀ a, Instr.nop ≠ .jmlLong a ∧ Instr.nop ≠ .jsl a :=
  ⟨⟨_, rfl⟩, nofun, nofun, nofun, fun _ => ⟨nofun, nofun⟩, fun _ => ⟨nofun, nofun⟩⟩

theorem witness_MemoryReadsTheLatestWrite :
    Memory.wf [(0, 0xA5), (0xFFFFFF, 0x5A)] = true ∧ 0xFFFFFF < 2 ^ 24 ∧ 0 ≠ 0xFFFFFF := by decide

theorem witness_CanonicalMemoriesAreExtensional :
    let m := Memory.write (Memory.write [] 0 0xA5) 0xFFFFFF 0x5A
    let m' := Memory.write (Memory.write [] 0xFFFFFF 0x5A) 0 0xA5
    m.wf = true ∧ m'.wf = true ∧ ∀ k, k < 2 ^ 24 → m.read k = m'.read k := ⟨by decide, by decide, fun _ _ => rfl⟩

/-- For LdaLoadsTheOperand and LdxAndLdyLoadTheOperand. -/
theorem witness_load_forms :
    (∀ v, ldaForm (.imm v) = some (0xA9, .ldaImm v)) ∧ (∀ d, ldaForm (.mem (.dp d)) = some (0xA5, .ldaDp d)) ∧
    (∀ d, ldaForm (.mem (.indSrY d)) = some (0xB3, .ldaIndSrY d)) ∧
    (∀ d, ldxForm (.mem (.dpY d)) = some (0xB6, .ldxDpY d)) ∧ (∀ a, ldyForm (.mem (.absX a)) = some (0xBC, .ldyAbsX a)) :=
  ⟨fun _ => rfl, fun _ => rfl, fun _ => rfl, fun _ => rfl, fun _ => rfl⟩

/-- For StoresWriteTheRegister. -/
theorem witness_store_forms :
    wide.mem.wf = true ∧ (∀ a, staForm (.longX a) = some (0x9F, .staLongX a)) ∧
    (∀ d, stxForm (.dpY d) = some (0x96, .stxDpY d)) ∧ (∀ d, styForm (.dpX d) = some (0x94, .styDpX d)) ∧
    ∀ a, stzForm (.absX a) = some (0x9E, .stzAbsX a) :=
  ⟨by decide, fun _ => rfl, fun _ => rfl, fun _ => rfl, fun _ => rfl⟩

/-- A part with decimal arithmetic while `P.D` is set. -/
def decimalState : State := { wide with P := 0x08, params := { Config.parameters with decimalArith := true } }

/-- For AdcAddsWithCarry, AdcOverflowIsSigned, SbcSubtractsWithBorrow and ComparesSetCarryZeroNegative; binary for want of
`P.D` and for want of `DECIMAL_ARITH`, and decimal. -/
theorem witness_arithmetic_forms :
    (∀ v, adcForm (.imm v) = some (0x69, .adcImm v)) ∧ (∃ t, exec (.adcImm (.word 0x7FFF)) wide = .next t) ∧
    (∀ d, sbcForm (.mem (.longIndDpY d)) = some (0xF7, .sbcLongIndDpY d)) ∧ Binary wide ∧
    Binary { decimalState with P := 0x00 } ∧ Binary { wide with P := 0x08 } ∧ ¬ Binary decimalState ∧
    (∀ v, cmpForm (.imm v) = some (0xC9, .cmpImm v)) ∧ (∀ v, cpxForm (.imm v) = some (0xE0, .cpxImm v)) ∧
    ∀ v, cpyForm (.imm v) = some (0xC0, .cpyImm v) :=
  ⟨fun _ => rfl, ⟨_, rfl⟩, fun _ => rfl, by decide, by decide, by decide, by decide, fun _ => rfl, fun _ => rfl,
    fun _ => rfl⟩

/-- Decimal ADC and SBC run (log 21). -/
theorem test_decimal_runs :
    (∃ t, exec (.adcImm (.word 0x0001)) decimalState = .next t) ∧ ∃ t, exec (.sbcImm (.word 0x0001)) decimalState = .next t :=
  ⟨⟨_, rfl⟩, _, rfl⟩

/-- For LogicCombinesTheAccumulator, BitTestsWithoutTouchingA and TestAndSetOrResetBits. -/
theorem witness_logic_forms :
    (∀ a, andForm (.mem (.long a)) = some (0x2F, .andLong a)) ∧ (∀ v, oraForm (.imm v) = some (0x09, .oraImm v)) ∧
    (∀ d, eorForm (.mem (.sr d)) = some (0x43, .eorSr d)) ∧ (∀ v, bitForm (.imm v) = some (0x89, .bitImm v)) ∧
    (∀ d, bitForm (.mem (.dp d)) = some (0x24, .bitDp d)) ∧ wide.params.bitImmWritesNV = true ∧
    ({ Config.parameters with bitImmWritesNV := false } : Parameters).bitImmWritesNV = false ∧
    (∀ d, tsbForm (.dp d) = some (0x04, .tsbDp d)) ∧ ∀ a, trbForm (.abs a) = some (0x1C, .trbAbs a) :=
  ⟨fun _ => rfl, fun _ => rfl, fun _ => rfl, fun _ => rfl, fun _ => rfl, rfl, rfl, fun _ => rfl, fun _ => rfl⟩

/-- For ShiftsMoveOneBit and IncAndDecWrap. -/
theorem witness_modify_forms :
    aslForm .acc = some (0x0A, .aslAcc) ∧ (∀ a, lsrForm (.mem (.absX a)) = some (0x5E, .lsrAbsX a)) ∧
    rolForm .acc = some (0x2A, .rolAcc) ∧ (∀ d, rorForm (.mem (.dpX d)) = some (0x76, .rorDpX d)) ∧
    (∀ d, incForm (.mem (.dp d)) = some (0xE6, .incDp d)) ∧ decForm .acc = some (0x3A, .decAcc) :=
  ⟨rfl, fun _ => rfl, rfl, fun _ => rfl, fun _ => rfl, rfl⟩

/-- For ReturnUndoesCall, with `witness_invariant`. -/
theorem witness_calls :
    (∃ a, (Instr.jsrIndX 0xFFFF = .jsrAbs a ∨ Instr.jsrIndX 0xFFFF = .jsrIndX a) ∧ Instr.rts = .rts) ∧
    ∃ l, Instr.jsl 0xFFFFFF = .jsl l ∧ Instr.rtl = .rtl := ⟨⟨0xFFFF, .inr rfl, rfl⟩, 0xFFFFFF, rfl, rfl⟩

/-- Both directions of XceExchangesCarryAndMode. -/
theorem witness_XceExchangesCarryAndMode : wide.flag .C = true ∧ emul.flag .C = false := by decide

end Sys2Proof.Tests
end

/-! What a `Step` does while the core does not run (`spec/10_state.md` R38). -/

namespace Sys2Proof.Machine

/-- Settles O8: a step with no input pending is a `Step` command, and that of a core that does not run changes the
outputs alone. -/
theorem stepWhileNotRunning : Obligations.StepWhileNotRunning := by
  refine ⟨fun r => ?_, fun s => ?_, fun s live noInput asleep => ?_, rfl⟩
  · cases r <;> decide
  · exact decide_eq_true_iff
  · rw [step_command live noInput, stepCommand_sleeping asleep]

end Sys2Proof.Machine

/-! How an instruction depends on the accumulator (`spec/10_state.md` R21, R32). Noninterference is an equation: an
operation that commutes with the overwriting of `A`, or of its high byte, reads no bit of what is overwritten, and
(overwriting with the value that stands there) keeps it as well. -/

namespace Sys2Proof.Machine

open Sys2Proof.Claims

/-- `g` on the next state of an answer. -/
def mapNext (g : State → State) : Result → Result
  | .next s => .next (g s)
  | .fault r => .fault r
  | .refused r => .refused r

@[simp] theorem mapNext_next (g : State → State) (s : State) : mapNext g (.next s) = .next (g s) := rfl

/-- `s` with the high byte of `A` overwritten. -/
def State.withHighA (s : State) (h : Byte) : State := s.setA (joinBytes h (lowByte s.A))

theorem State.setA_self (s : State) : s.setA s.A = s := rfl

theorem State.withHighA_self (s : State) : s.withHighA (highByte s.A) = s := by
  rw [State.withHighA, joinBytes_high_low, State.setA_self]

/-- `f` neither reads nor writes `A`. -/
def IgnoresA (f : State → Result) : Prop := ∀ s v, f (s.setA v) = mapNext (·.setA v) (f s)

/-- From `s`, `f` neither reads nor writes the high byte of `A`. -/
def HighAInert (f : State → Result) (s : State) : Prop := ∀ h, f (s.withHighA h) = mapNext (·.withHighA h) (f s)

/-- `f` answers a next state and keeps `P.M`. -/
def KeepsM (f : State → Result) : Prop := ∀ s, ∃ t, f s = .next t ∧ t.flag .M = s.flag .M

/-- `f` works on `A[wA-1:0]`: while `P.M` is set the high byte is inert, and `P.M` stays. -/
structure AtWidthA (f : State → Result) : Prop where
  inert : ∀ s, s.flag .M = true → HighAInert f s
  keepsM : KeepsM f

/-! ## What the equations say of a run -/

section
variable {f : State → Result} {s t : State}

theorem IgnoresA.keepsA (ignores : IgnoresA f) (e : f s = .next t) : t.A = s.A := by
  have same := ignores s s.A
  rw [State.setA_self, e, mapNext_next] at same
  have overwritten : t = t.setA s.A := Host.Outcome.next.inj same
  rw [overwritten, State.setA_A]

theorem IgnoresA.highAInert (ignores : IgnoresA f) (e : f s = .next t) : HighAInert f s := fun h => by
  rw [State.withHighA, ignores, e, mapNext_next, mapNext_next, State.withHighA, ignores.keepsA e]

theorem HighAInert.keepsHighA (inert : HighAInert f s) (e : f s = .next t) : highByte t.A = highByte s.A := by
  have same := inert (highByte s.A)
  rw [State.withHighA_self, e, mapNext_next] at same
  rw [Host.Outcome.next.inj same, State.withHighA, State.setA_A, highByte_joinBytes]

theorem HighAInert.run (inert : HighAInert f s) (e : f s = .next t) (h : Byte) :
    f (s.withHighA h) = .next (t.withHighA h) := by
  rw [inert, e, mapNext_next]

theorem KeepsM.of_next (keeps : KeepsM f) (e : f s = .next t) : t.flag .M = s.flag .M := by
  obtain ⟨u, answer, same⟩ := keeps s
  rw [answer] at e
  rwa [← Host.Outcome.next.inj e]

/-- `AtWidthA` of an operation to which a value is given that the instruction reads elsewhere in the state. -/
theorem AtWidthA.reading {α : Type} {g : α → State → Result} (rule : ∀ x, AtWidthA (g x)) (read : State → α)
    (elsewhere : ∀ s h, read (s.withHighA h) = read s) : AtWidthA fun s => g (read s) s where
  inert s narrow h := by
    show g (read (s.withHighA h)) _ = _
    rw [elsewhere, (rule _).inert s narrow h]
  keepsM s := (rule (read s)).keepsM s

end

/-! ## The shared operations do not look at `A` -/

section
variable (s : State) (v : Word)

theorem flag_setA (f : Flag) : (s.setA v).flag f = s.flag f := rfl

theorem setPC_setA (x : Word) : (s.setA v).setPC x = (s.setPC x).setA v := rfl

theorem writeP_setA (p : Byte) : (s.setA v).writeP p = (s.writeP p).setA v := by
  rw [State.writeP_eq, State.writeP_eq]
  rfl

theorem read16_setA (ea : Ea) : read16 ea (s.setA v) = ((read16 ea s).1, (read16 ea s).2.setA v) := by
  rw [read16_eq, read16_eq]
  rfl

theorem push16_setA (x : Word) : push16 x (s.setA v) = (push16 x s).setA v := rfl

theorem programPointer_setA (a : Word) : programPointer a (s.setA v) = programPointer a s := by
  rw [programPointer, programPointer, State.setA_PBR, State.setA_X]

theorem pushData_setA (w : Width) (x : Word) : pushData w x (s.setA v) = (pushData w x s).setA v := by
  cases w <;> rfl

theorem pullData_setA (w : Width) : pullData w (s.setA v) = ((pullData w s).1, (pullData w s).2.setA v) := by
  cases w <;> rfl

theorem effectiveAddress_setA (m : Mode) :
    effectiveAddress m (s.setA v) = ((effectiveAddress m s).1, (effectiveAddress m s).2.setA v) := by
  cases m <;> rfl

theorem readData_setA (ea : Ea) (w : Width) :
    readData ea w (s.setA v) = ((readData ea w s).1, (readData ea w s).2.setA v) := by
  cases w <;> rfl

theorem writeData_setA (ea : Ea) (w : Width) (x : Word) :
    writeData ea w x (s.setA v) = (writeData ea w x s).setA v := by
  cases w <;> rfl

theorem operandRead_setA (src : Source) (w : Width) :
    operandRead src w (s.setA v) = ((operandRead src w s).1, (operandRead src w s).2.setA v) := by
  cases src with
  | imm i => rfl
  | mem m => simp only [operandRead, effectiveAddress_setA, readData_setA]

theorem operandWrite_setA (m : Mode) (w : Width) (x : Word) :
    operandWrite m w x (s.setA v) = (operandWrite m w x s).setA v := by
  simp only [operandWrite, effectiveAddress_setA, writeData_setA]

theorem modify_mem_setA (m : Mode) (w : Width) (r : Word → Word) (p : Word → Byte → Byte) :
    modify (.mem m) w r p (s.setA v) = (modify (.mem m) w r p s).setA v := by
  simp only [modify, effectiveAddress_setA, readData_setA]
  exact writeData_setA (State.setP _ _) v ..

theorem interrupt_setA (vecN vecE ret : Word) :
    interrupt vecN vecE ret (s.setA v) = (interrupt vecN vecE ret s).setA v := by
  cases e : s.E <;> simp only [interrupt, State.setA_E, e] <;> rfl

theorem returnFromInterrupt_setA : returnFromInterrupt (s.setA v) = (returnFromInterrupt s).setA v := by
  cases e : s.E <;> simp only [returnFromInterrupt_eq, State.setA_E, e] <;> rfl

end

/-! ## Instructions that neither read nor write `A` -/

section
variable (src : Source) (m : Mode)

theorem loadX_ignoresA : IgnoresA (loadX src) := fun s v => by
  simp only [loadX, operandRead_setA]
  rfl

theorem loadY_ignoresA : IgnoresA (loadY src) := fun s v => by
  simp only [loadY, operandRead_setA]
  rfl

theorem compareX_ignoresA : IgnoresA (compareX src) := fun s v => by
  simp only [compareX, operandRead_setA]
  rfl

theorem compareY_ignoresA : IgnoresA (compareY src) := fun s v => by
  simp only [compareY, operandRead_setA]
  rfl

theorem storeX_ignoresA : IgnoresA (storeX m) := fun s v => congrArg _ (operandWrite_setA s v ..)

theorem storeY_ignoresA : IgnoresA (storeY m) := fun s v => congrArg _ (operandWrite_setA s v ..)

theorem storeZero_ignoresA : IgnoresA (storeZero m) := fun s v => congrArg _ (operandWrite_setA s v ..)

theorem branch_ignoresA (cond : Bool) (r : Byte) : IgnoresA (branch cond r) := fun s v => by
  cases cond <;> rfl

theorem execJmpIndX_ignoresA (a : Word) : IgnoresA (execJmpIndX a) := fun s v => by
  simp only [execJmpIndX, programPointer_setA, read16_setA, setPC_setA, mapNext_next]

theorem execJsrIndX_ignoresA (a : Word) : IgnoresA (execJsrIndX a) := fun s v => by
  simp only [execJsrIndX, State.setA_PC, push16_setA, programPointer_setA, read16_setA, setPC_setA, mapNext_next]

theorem execPlx_ignoresA : IgnoresA execPlx := fun s v => by
  simp only [execPlx, pullData_setA]
  rfl

theorem execPly_ignoresA : IgnoresA execPly := fun s v => by
  simp only [execPly, pullData_setA]
  rfl

theorem execWdm_ignoresA (x : Byte) : IgnoresA (execWdm x) := fun s v => by
  cases e : s.params.supported 0x42 <;> simp only [execWdm, State.setA_params, e] <;> rfl

/-- `P.C` chooses the mode. -/
theorem execXce_ignoresA : IgnoresA execXce := fun s v => by
  cases c : s.flag .C <;> simp only [execXce, flag_setA, c, State.writeP_eq] <;> rfl

end

/-! ## Instructions that work on `A[wA-1:0]` -/

theorem State.wA_of_narrow {s : State} (narrow : s.flag .M = true) : s.wA = .narrow := by
  rw [State.wA, narrow]
  rfl

theorem State.wX_of_narrow {s : State} (narrow : s.flag .X = true) : s.wX = .narrow := by
  rw [State.wX, narrow]
  rfl

/-- A narrow value does not depend on the high byte. -/
@[simp] theorem takeBits_joinBytes_lowByte (h : Byte) (v : Word) :
    takeBits .narrow (joinBytes h (lowByte v)) = takeBits .narrow v := by
  rw [← zeroExtend_lowByte, lowByte_joinBytes, zeroExtend_lowByte]

section
variable (s : State) (h : Byte)

@[simp] theorem State.withHighA_flag (f : Flag) : (s.withHighA h).flag f = s.flag f := rfl

@[simp] theorem State.withHighA_wA : (s.withHighA h).wA = s.wA := rfl

@[simp] theorem State.withHighA_wX : (s.withHighA h).wX = s.wX := rfl

@[simp] theorem State.withHighA_decimal : (s.withHighA h).decimal = s.decimal := rfl

@[simp] theorem State.withHighA_P : (s.withHighA h).P = s.P := rfl

@[simp] theorem State.withHighA_setP (p : Byte) : (s.withHighA h).setP p = (s.setP p).withHighA h := rfl

@[simp] theorem State.withHighA_setNZ (w : Width) (v : Word) :
    (s.withHighA h).setNZ w v = (s.setNZ w v).withHighA h := rfl

@[simp] theorem takeBits_withHighA_A : takeBits .narrow (s.withHighA h).A = takeBits .narrow s.A :=
  takeBits_joinBytes_lowByte h s.A

@[simp] theorem State.withHighA_readA : (s.withHighA h).readA .narrow = s.readA .narrow := takeBits_withHighA_A s h

@[simp] theorem State.withHighA_writeX (w : Width) (v : Word) :
    (s.withHighA h).writeX w v = (s.writeX w v).withHighA h := rfl

@[simp] theorem State.withHighA_writeY (w : Width) (v : Word) :
    (s.withHighA h).writeY w v = (s.writeY w v).withHighA h := rfl

@[simp] theorem State.withHighA_writeA (v : Word) :
    (s.withHighA h).writeA .narrow v = (s.writeA .narrow v).withHighA h := by
  simp [State.withHighA, State.writeA, State.setA]

@[simp] theorem pushData_withHighA (w : Width) (x : Word) :
    pushData w x (s.withHighA h) = (pushData w x s).withHighA h := by
  cases w <;> rfl

@[simp] theorem pullData_withHighA (w : Width) :
    pullData w (s.withHighA h) = ((pullData w s).1, (pullData w s).2.withHighA h) := by
  cases w <;> rfl

@[simp] theorem operandRead_withHighA (src : Source) (w : Width) :
    operandRead src w (s.withHighA h) = ((operandRead src w s).1, (operandRead src w s).2.withHighA h) := by
  rw [State.withHighA, operandRead_setA, operandRead_state]
  rfl

@[simp] theorem operandWrite_withHighA (m : Mode) (w : Width) (x : Word) :
    operandWrite m w x (s.withHighA h) = (operandWrite m w x s).withHighA h := by
  rw [State.withHighA, operandWrite_setA, operandWrite_eq]
  rfl

@[simp] theorem modify_withHighA (target : Target) (r : Word → Word) (p : Word → Byte → Byte) :
    modify target .narrow r p (s.withHighA h) = (modify target .narrow r p s).withHighA h := by
  cases target with
  | acc => simp [modify]
  | mem m =>
    rw [State.withHighA, modify_mem_setA, modify_mem]
    rfl

/-- Modifying an operand keeps `P.M` if the new status byte does. -/
theorem modify_keepsM (target : Target) (w : Width) (r : Word → Word) {p : Word → Byte → Byte}
    (keeps : ∀ v q, getFlag .M (p v q) = getFlag .M q) : (modify target w r p s).flag .M = s.flag .M := by
  cases target with
  | acc => rw [modify_acc, State.writeA_eq]; exact keeps ..
  | mem m => rw [modify_mem]; exact keeps ..

end

section
variable (src : Source) (m : Mode)

theorem loadA_atWidth : AtWidthA (loadA src) where
  inert s narrow h := by simp [loadA, State.wA_of_narrow narrow]
  keepsM s := ⟨_, loadA_eq src s, by simp [State.flag]⟩

theorem addWithCarry_atWidth : AtWidthA (addWithCarry src) where
  inert s narrow h := by simp [addWithCarry, addToA, State.wA_of_narrow narrow]
  keepsM s := ⟨_, addWithCarry_eq src s, by simp [State.flag]⟩

theorem subtractWithBorrow_atWidth : AtWidthA (subtractWithBorrow src) where
  inert s narrow h := by simp [subtractWithBorrow, addToA, State.wA_of_narrow narrow]
  keepsM s := ⟨_, subtractWithBorrow_eq src s, by simp [State.flag]⟩

theorem compareA_atWidth : AtWidthA (compareA src) where
  inert s narrow h := by simp [compareA, State.wA_of_narrow narrow]
  keepsM s := ⟨_, compareA_eq src s, by simp [State.flag]⟩

theorem logicalA_atWidth (f : Word → Word → Word) : AtWidthA (logicalA f src) where
  inert s narrow h := by simp [logicalA, State.wA_of_narrow narrow]
  keepsM s := ⟨_, logicalA_eq f src s, by simp [State.flag]⟩

theorem bitTest_atWidth (copyNV : Bool) : AtWidthA (bitTest copyNV src) where
  inert s narrow h := by simp [bitTest, State.wA_of_narrow narrow]
  keepsM s := ⟨_, bitTest_eq copyNV src s, by cases copyNV <;> simp [State.flag]⟩

theorem storeA_atWidth : AtWidthA (storeA m) where
  inert s narrow h := by simp [storeA, State.wA_of_narrow narrow]
  keepsM s := ⟨_, rfl, by rw [operandWrite_eq]; rfl⟩

theorem testAndSet_atWidth : AtWidthA (testAndSet m) where
  inert s narrow h := by simp [testAndSet, State.wA_of_narrow narrow]
  keepsM s := ⟨_, rfl, modify_keepsM s _ _ _ (by simp)⟩

theorem testAndReset_atWidth : AtWidthA (testAndReset m) where
  inert s narrow h := by simp [testAndReset, State.wA_of_narrow narrow]
  keepsM s := ⟨_, rfl, modify_keepsM s _ _ _ (by simp)⟩

theorem transferToA_atWidth (v : Word) : AtWidthA (transferToA v) where
  inert s narrow h := by simp [transferToA, State.wA_of_narrow narrow]
  keepsM s := ⟨_, transferToA_eq v s, by simp [State.flag]⟩

theorem execPha_atWidth : AtWidthA execPha where
  inert s narrow h := by simp [execPha, State.wA_of_narrow narrow]
  keepsM s := ⟨_, rfl, by cases s.wA <;> rfl⟩

theorem execPla_atWidth : AtWidthA execPla where
  inert s narrow h := by simp [execPla, State.wA_of_narrow narrow]
  keepsM s := ⟨_, rfl, by rw [pullData_eq, State.writeA_eq, State.flag_setNZ]; rfl⟩

end

section
variable (target : Target)

theorem arithmeticShiftLeft_atWidth : AtWidthA (arithmeticShiftLeft target) where
  inert s narrow h := by simp [arithmeticShiftLeft, State.wA_of_narrow narrow]
  keepsM s := ⟨_, rfl, modify_keepsM s _ _ _ (by simp)⟩

theorem logicalShiftRight_atWidth : AtWidthA (logicalShiftRight target) where
  inert s narrow h := by simp [logicalShiftRight, State.wA_of_narrow narrow]
  keepsM s := ⟨_, rfl, modify_keepsM s _ _ _ (by simp)⟩

theorem rotateLeftThroughC_atWidth : AtWidthA (rotateLeftThroughC target) where
  inert s narrow h := by simp [rotateLeftThroughC, State.wA_of_narrow narrow]
  keepsM s := ⟨_, rfl, modify_keepsM s _ _ _ (by simp)⟩

theorem rotateRightThroughC_atWidth : AtWidthA (rotateRightThroughC target) where
  inert s narrow h := by simp [rotateRightThroughC, State.wA_of_narrow narrow]
  keepsM s := ⟨_, rfl, modify_keepsM s _ _ _ (by simp)⟩

theorem incrementTarget_atWidth : AtWidthA (incrementTarget target) where
  inert s narrow h := by simp [incrementTarget, State.wA_of_narrow narrow]
  keepsM s := ⟨_, rfl, modify_keepsM s _ _ _ (by simp)⟩

theorem decrementTarget_atWidth : AtWidthA (decrementTarget target) where
  inert s narrow h := by simp [decrementTarget, State.wA_of_narrow narrow]
  keepsM s := ⟨_, rfl, modify_keepsM s _ _ _ (by simp)⟩

end

/-! ## Instructions that use all of `A` (`10_state.md` R21) -/

theorem execTax_keepsM : KeepsM execTax := fun s => ⟨_, transferToX_eq s.A s, by simp [State.flag]⟩

theorem execTay_keepsM : KeepsM execTay := fun s => ⟨_, transferToY_eq s.A s, by simp [State.flag]⟩

theorem blockMove_keepsM (delta : Word) (dst src : Byte) : KeepsM (blockMove delta dst src) := fun s =>
  ⟨_, blockMove_eq delta dst src s, rfl⟩

/-- TAX takes the low byte alone while the index registers are narrow. -/
theorem execTax_highAInert {s : State} (narrow : s.flag .X = true) : HighAInert execTax s := fun h => by
  simp [execTax, transferToX, State.wX_of_narrow narrow]

/-- TAY takes the low byte alone while the index registers are narrow. -/
theorem execTay_highAInert {s : State} (narrow : s.flag .X = true) : HighAInert execTay s := fun h => by
  simp [execTay, transferToY, State.wX_of_narrow narrow]

/-! ## Every instruction -/

/-- What an instruction may do with `A`: nothing; work on its low `wA` bits; or use the high byte as well, where
`UsesHighA` says so. Only the first kind may change `P.M`. -/
inductive AccumulatorUse (i : Instr) : Prop
  | ignored (ignores : IgnoresA (exec i))
  | atWidth (rule : AtWidthA (exec i))
  | whole (inert : ∀ s, ¬ UsesHighA i (s.flag .X) → HighAInert (exec i) s) (keepsM : KeepsM (exec i))

theorem usesHighA_of_mem {i : Instr} (h : i ∈ [.xba, .tcs, .tsc, .tcd, .tdc]) (x : Bool) : UsesHighA i x := .inl h

theorem usesHighA_mvn (dst src : Byte) (x : Bool) : UsesHighA (.mvn dst src) x := .inr (.inl ⟨dst, src, .inl rfl⟩)

theorem usesHighA_mvp (dst src : Byte) (x : Bool) : UsesHighA (.mvp dst src) x := .inr (.inl ⟨dst, src, .inr rfl⟩)

theorem narrow_of_not_usesHighA {i : Instr} (h : i ∈ [.tax, .tay]) {x : Bool} (n : ¬ UsesHighA i x) : x = true := by
  cases x
  · exact absurd (.inr (.inr ⟨rfl, h⟩)) n
  · rfl

/-- The instructions by the shared meaning that runs them; those left to the last case reduce without a look at `A`. -/
theorem accumulatorUse (i : Instr) : AccumulatorUse i := by
  cases i with
  | ldaIndDpX | ldaSr | ldaDp | ldaLongIndDp | ldaImm | ldaAbs | ldaLong | ldaIndDpY | ldaIndDp | ldaIndSrY
    | ldaDpX | ldaLongIndDpY | ldaAbsY | ldaAbsX | ldaLongX => exact .atWidth (loadA_atWidth _)
  | adcIndDpX | adcSr | adcDp | adcLongIndDp | adcImm | adcAbs | adcLong | adcIndDpY | adcIndDp | adcIndSrY
    | adcDpX | adcLongIndDpY | adcAbsY | adcAbsX | adcLongX => exact .atWidth (addWithCarry_atWidth _)
  | sbcIndDpX | sbcSr | sbcDp | sbcLongIndDp | sbcImm | sbcAbs | sbcLong | sbcIndDpY | sbcIndDp | sbcIndSrY
    | sbcDpX | sbcLongIndDpY | sbcAbsY | sbcAbsX | sbcLongX => exact .atWidth (subtractWithBorrow_atWidth _)
  | cmpIndDpX | cmpSr | cmpDp | cmpLongIndDp | cmpImm | cmpAbs | cmpLong | cmpIndDpY | cmpIndDp | cmpIndSrY
    | cmpDpX | cmpLongIndDpY | cmpAbsY | cmpAbsX | cmpLongX => exact .atWidth (compareA_atWidth _)
  | staIndDpX | staSr | staDp | staLongIndDp | staAbs | staLong | staIndDpY | staIndDp | staIndSrY | staDpX
    | staLongIndDpY | staAbsY | staAbsX | staLongX => exact .atWidth (storeA_atWidth _)
  | tsbDp | tsbAbs => exact .atWidth (testAndSet_atWidth _)
  | trbDp | trbAbs => exact .atWidth (testAndReset_atWidth _)
  | oraIndDpX | oraSr | oraDp | oraLongIndDp | oraImm | oraAbs | oraLong | oraIndDpY | oraIndDp | oraIndSrY
    | oraDpX | oraLongIndDpY | oraAbsY | oraAbsX | oraLongX | andIndDpX | andSr | andDp | andLongIndDp | andImm
    | andAbs | andLong | andIndDpY | andIndDp | andIndSrY | andDpX | andLongIndDpY | andAbsY | andAbsX
    | andLongX | eorIndDpX | eorSr | eorDp | eorLongIndDp | eorImm | eorAbs | eorLong | eorIndDpY | eorIndDp
    | eorIndSrY | eorDpX | eorLongIndDpY | eorAbsY | eorAbsX | eorLongX => exact .atWidth (logicalA_atWidth _ _)
  | bitDp | bitAbs | bitDpX | bitAbsX => exact .atWidth (bitTest_atWidth _ _)
  | bitImm => exact .atWidth (.reading (bitTest_atWidth _) (fun s => s.params.bitImmWritesNV) fun _ _ => rfl)
  | aslDp | aslAbs | aslDpX | aslAbsX | aslAcc => exact .atWidth (arithmeticShiftLeft_atWidth _)
  | lsrDp | lsrAbs | lsrDpX | lsrAbsX | lsrAcc => exact .atWidth (logicalShiftRight_atWidth _)
  | rolDp | rolAbs | rolDpX | rolAbsX | rolAcc => exact .atWidth (rotateLeftThroughC_atWidth _)
  | rorDp | rorAbs | rorDpX | rorAbsX | rorAcc => exact .atWidth (rotateRightThroughC_atWidth _)
  | incDp | incAbs | incDpX | incAbsX | incAcc => exact .atWidth (incrementTarget_atWidth _)
  | decDp | decAbs | decDpX | decAbsX | decAcc => exact .atWidth (decrementTarget_atWidth _)
  | txa => exact .atWidth (.reading transferToA_atWidth State.X fun _ _ => rfl)
  | tya => exact .atWidth (.reading transferToA_atWidth State.Y fun _ _ => rfl)
  | pha => exact .atWidth execPha_atWidth
  | pla => exact .atWidth execPla_atWidth
  | xba | tsc | tcd | tdc =>
    exact .whole (fun _ n => absurd (usesHighA_of_mem (by decide) _) n) fun s => ⟨_, rfl, State.flag_setNZ ..⟩
  | tcs => exact .whole (fun _ n => absurd (usesHighA_of_mem (by decide) _) n) fun s => ⟨_, rfl, rfl⟩
  | mvn => exact .whole (fun _ n => absurd (usesHighA_mvn ..) n) (blockMove_keepsM _ _ _)
  | mvp => exact .whole (fun _ n => absurd (usesHighA_mvp ..) n) (blockMove_keepsM _ _ _)
  | tax => exact .whole (fun _ n => execTax_highAInert (narrow_of_not_usesHighA (by decide) n)) execTax_keepsM
  | tay => exact .whole (fun _ n => execTay_highAInert (narrow_of_not_usesHighA (by decide) n)) execTay_keepsM
  | ldxImm | ldxDp | ldxAbs | ldxDpY | ldxAbsY => exact .ignored (loadX_ignoresA _)
  | ldyImm | ldyDp | ldyAbs | ldyDpX | ldyAbsX => exact .ignored (loadY_ignoresA _)
  | stxDp | stxAbs | stxDpY => exact .ignored (storeX_ignoresA _)
  | styDp | styAbs | styDpX => exact .ignored (storeY_ignoresA _)
  | stzDp | stzDpX | stzAbs | stzAbsX => exact .ignored (storeZero_ignoresA _)
  | cpxImm | cpxDp | cpxAbs => exact .ignored (compareX_ignoresA _)
  | cpyImm | cpyDp | cpyAbs => exact .ignored (compareY_ignoresA _)
  | bpl | bmi | bvc | bvs | bra | bcc | bcs | bne | beq => exact .ignored fun s v => branch_ignoresA _ _ s v
  | jmpIndX => exact .ignored (execJmpIndX_ignoresA _)
  | jsrIndX => exact .ignored (execJsrIndX_ignoresA _)
  | phx | phy => exact .ignored fun s v => congrArg _ (pushData_setA s v ..)
  | plx => exact .ignored execPlx_ignoresA
  | ply => exact .ignored execPly_ignoresA
  | rep | sep => exact .ignored fun s v => congrArg _ (writeP_setA s v _)
  | plp => exact .ignored fun s v => congrArg _ (writeP_setA (pull8 s).2 v _)
  | brk | cop => exact .ignored fun s v => congrArg _ (interrupt_setA s v ..)
  | rti => exact .ignored fun s v => congrArg _ (returnFromInterrupt_setA s v)
  | wdm v => exact .ignored (execWdm_ignoresA v)
  | xce => exact .ignored execXce_ignoresA
  | _ => exact .ignored fun _ _ => rfl

/-- While `P.M` is set the high byte of `A` is inert but for the instructions that R21 names (R32). -/
theorem exec_highAInert {i : Instr} {s t : State} (narrow : s.flag .M = true) (n : ¬ UsesHighA i (s.flag .X))
    (e : exec i s = .next t) : HighAInert (exec i) s :=
  match accumulatorUse i with
  | .ignored ignores => ignores.highAInert e
  | .atWidth rule => rule.inert s narrow
  | .whole inert _ => inert s n

/-- An instruction that changes `P.M` changes no bit of `A` (R32). -/
theorem exec_keepsA_of_changesM {i : Instr} {s t : State} (e : exec i s = .next t) (changes : t.flag .M ≠ s.flag .M) :
    t.A = s.A :=
  match accumulatorUse i with
  | .ignored ignores => ignores.keepsA e
  | .atWidth rule => absurd (rule.keepsM.of_next e) changes
  | .whole _ keepsM => absurd (keepsM.of_next e) changes

/-- Settles O24: an instruction ignores `A`, or works on its low `wA` bits, or is one that R21 names. -/
theorem narrowAccumulatorHighByteIsInert : Obligations.NarrowAccumulatorHighByteIsInert := by
  refine ⟨fun i s t h narrow n e => ?_, fun i s t e changes => exec_keepsA_of_changesM e changes⟩
  have inert := exec_highAInert narrow n e
  exact ⟨inert.keepsHighA e, inert.run e h⟩

end Sys2Proof.Machine

/-! Loads (`spec/41_load_store_transfer.md` R161): every form of LDA is the one load of the accumulator, and the status
byte that a load leaves has N and Z of the value and the other flags as before (`spec/10_state.md` R37). -/

namespace Sys2Proof.Machine

open Sys2Proof.Claims

/-! ## A state whose status byte `SetNZ` gave -/

section
variable {s t : State} {w : Width} {v : Word}

theorem negativeZero_of_flagsNZ (hP : t.P = flagsNZ w v s.P) : NegativeZero w v t := by
  cases w <;> simp [NegativeZero, State.flag, hP, signBit, widthBits]

theorem onlyFlags_of_flagsNZ (hP : t.P = flagsNZ w v s.P) : OnlyFlags [.N, .Z] s t := by
  intro f other
  obtain ⟨notN, notZ⟩ : f ≠ .N ∧ f ≠ .Z := by simpa using other
  rw [State.flag, hP, getFlag_flagsNZ, if_neg notN, if_neg notZ, State.flag]

end

/-- What the accumulator gets is a matter of `A` alone. -/
theorem accumulatorGets_congr {w : Width} {v : Word} {s t u : State} (hA : u.A = t.A) (gets : AccumulatorGets w v s t) :
    AccumulatorGets w v s u := by
  cases w <;> simpa [AccumulatorGets, hA] using gets

/-! ## LDA -/

/-- Every form of LDA runs as `loadA` of its operand. -/
theorem exec_ldaForm {src : Source} {op : Byte} {i : Instr} (form : ldaForm src = some (op, i)) (s : State) :
    exec i s = loadA src s := by
  cases src with
  | imm v => cases form; rfl
  | mem m => cases m <;> cases form <;> rfl

/-- Settles O32: each form runs as `loadA`, whose next state differs from the old one in `A`, `P` and the bus alone. -/
theorem ldaLoadsTheOperand : Obligations.LdaLoadsTheOperand := by
  intro src op i s form
  exact ⟨_, (exec_ldaForm form s).trans (loadA_eq src s),
    accumulatorGets_congr rfl (s.writeA_gets _ _), negativeZero_of_flagsNZ rfl, onlyFlags_of_flagsNZ rfl, rfl⟩

end Sys2Proof.Machine

/-! REP and SEP (`spec/44_mode_and_flags.md` R311, R312): each is one `SetP` of the masked status byte, so the forcing
of bits 5 and 4 and the truncation of `X` and `Y` are those of `SetP` (`spec/10_state.md` R35). -/

namespace Sys2Proof.Machine

open Sys2Proof.Claims

theorem exec_rep (mask : Byte) (s : State) : exec (.rep mask) s = .next (s.writeP (s.P &&& ~~~mask)) := rfl

theorem exec_sep (mask : Byte) (s : State) : exec (.sep mask) s = .next (s.writeP (s.P ||| mask)) := rfl

/-- Settles O58: REP and SEP run as `SetP`, whose whole next state `writeP_eq` gives. -/
theorem repAndSepMaskTheStatus : Obligations.RepAndSepMaskTheStatus := by
  intro mask s
  constructor
  · exact (exec_rep mask s).trans (congrArg _ (s.writeP_eq _))
  · exact (exec_sep mask s).trans (congrArg _ (s.writeP_eq _))

end Sys2Proof.Machine

/-! Encoding and decoding (`spec/30_encoding.md` R91 to R94). Between an instruction and its bytes stands the cell of
the opcode map: every instruction is made by the cell of its opcode, and what a cell makes is encoded by the cell's
opcode and the operand bytes it was made of. -/

namespace Sys2Proof

open Sys2Proof.Machine

/-- The cell makes the instruction of these operand bytes while `P.M = m` and `P.X = x`. -/
inductive Entry.Makes (m x : Bool) : Entry → List Byte → Instr → Prop
  | imp (i : Instr) : Makes m x (.imp i) [] i
  | imm8 (f : Byte → Instr) (b : Byte) : Makes m x (.imm8 f) [b] (f b)
  | immM (f : Imm → Instr) (v : Imm) (fits : v.fits m = true) : Makes m x (.immM f) (immBytes v) (f v)
  | immX (f : Imm → Instr) (v : Imm) (fits : v.fits x = true) : Makes m x (.immX f) (immBytes v) (f v)
  | imm16 (f : Word → Instr) (v : Word) : Makes m x (.imm16 f) (wordBytes v) (f v)
  | sig (f : Byte → Instr) (b : Byte) : Makes m x (.sig f) [b] (f b)
  | d8 (f : Byte → Instr) (b : Byte) : Makes m x (.d8 f) [b] (f b)
  | a16 (f : Word → Instr) (v : Word) : Makes m x (.a16 f) (wordBytes v) (f v)
  | a24 (f : Addr → Instr) (a : Addr) : Makes m x (.a24 f) (addrBytes a) (f a)
  | rel8 (f : Byte → Instr) (b : Byte) : Makes m x (.rel8 f) [b] (f b)
  | rel16 (f : Word → Instr) (v : Word) : Makes m x (.rel16 f) (wordBytes v) (f v)
  | blk (f : Byte → Byte → Instr) (b0 b1 : Byte) : Makes m x (.blk f) [b0, b1] (f b0 b1)

@[simp] theorem wordBytes_joinBytes (hi lo : Byte) : wordBytes (joinBytes hi lo) = [lo, hi] := by simp [wordBytes]

@[simp] theorem addrBytes_joinAddr (b2 b1 b0 : Byte) : addrBytes (joinAddr b2 b1 b0) = [b0, b1, b2] := by
  simp [addrBytes]

/-! ## A cell reads back what it makes -/

theorem decodeImm_immBytes (f : Imm → Instr) {narrow : Bool} {v : Imm} (fits : v.fits narrow = true)
    (rest : List Byte) : decodeImm f narrow (immBytes v ++ rest) = .ok (f v) := by
  cases v <;> cases narrow <;> simp_all [Imm.fits, decodeImm, immBytes, wordBytes]

theorem immBytes_of_decodeImm {f : Imm → Instr} {narrow : Bool} {bs : List Byte} {i : Instr}
    (e : decodeImm f narrow bs = .ok i) :
    ∃ v rest, bs = immBytes v ++ rest ∧ v.fits narrow = true ∧ i = f v := by
  unfold decodeImm at e
  split at e <;> cases e
  case h_1 b0 rest => exact ⟨.byte b0, rest, rfl, rfl, rfl⟩
  case h_2 b0 b1 rest => exact ⟨.word (joinBytes b1 b0), rest, by simp [immBytes], rfl, rfl⟩

theorem immBytes_length {narrow : Bool} {v : Imm} (fits : v.fits narrow = true) :
    (immBytes v).length = if narrow then 1 else 2 := by
  cases v <;> cases narrow <;> simp_all [Imm.fits, immBytes, wordBytes]

section
variable {m x : Bool} {c : Entry} {bs : List Byte} {i : Instr}

theorem Entry.Makes.decode (makes : c.Makes m x bs i) (rest : List Byte) : c.decode m x (bs ++ rest) = .ok i := by
  cases makes with
  | immM f v fits => exact decodeImm_immBytes f fits rest
  | immX f v fits => exact decodeImm_immBytes f fits rest
  | imm16 | a16 | rel16 => simp [Entry.decode, wordBytes]
  | a24 => simp [Entry.decode, addrBytes]
  | _ => rfl

theorem Entry.makes_of_decode (e : c.decode m x bs = .ok i) : ∃ used rest, bs = used ++ rest ∧ c.Makes m x used i := by
  unfold Entry.decode at e
  split at e
  case h_1 j _ => cases e; exact ⟨[], bs, rfl, .imp _⟩
  case h_2 =>
    obtain ⟨v, rest, rfl, fits, rfl⟩ := immBytes_of_decodeImm e
    exact ⟨_, rest, rfl, .immM _ v fits⟩
  case h_3 =>
    obtain ⟨v, rest, rfl, fits, rfl⟩ := immBytes_of_decodeImm e
    exact ⟨_, rest, rfl, .immX _ v fits⟩
  all_goals cases e
  case h_4 f b0 rest => exact ⟨[b0], rest, rfl, .imm8 f b0⟩
  case h_5 f b0 rest => exact ⟨[b0], rest, rfl, .sig f b0⟩
  case h_6 f b0 rest => exact ⟨[b0], rest, rfl, .d8 f b0⟩
  case h_7 f b0 rest => exact ⟨[b0], rest, rfl, .rel8 f b0⟩
  case h_8 f b0 b1 rest => exact ⟨_, rest, by simp, .imm16 f (joinBytes b1 b0)⟩
  case h_9 f b0 b1 rest => exact ⟨_, rest, by simp, .a16 f (joinBytes b1 b0)⟩
  case h_10 f b0 b1 rest => exact ⟨_, rest, by simp, .rel16 f (joinBytes b1 b0)⟩
  case h_11 f b0 b1 rest => exact ⟨[b0, b1], rest, rfl, .blk f b0 b1⟩
  case h_12 f b0 b1 b2 rest => exact ⟨_, rest, by simp, .a24 f (joinAddr b2 b1 b0)⟩

/-- A cell makes its instruction of as many bytes as R91 says follow the opcode. -/
theorem Entry.Makes.length (makes : c.Makes m x bs i) : bs.length = c.operandBytes m x := by
  cases makes with
  | immM f v fits => exact immBytes_length fits
  | immX f v fits => exact immBytes_length fits
  | _ => rfl

end

theorem Entry.operandBytes_le (m x : Bool) (c : Entry) : c.operandBytes m x ≤ 3 := by
  cases c <;> simp [Entry.operandBytes, Entry.fetchedOperands] <;> split <;> decide

/-- Three bytes are enough for every cell. -/
theorem Entry.decode_three (m x : Bool) (c : Entry) (b0 b1 b2 : Byte) : ∃ i, c.decode m x [b0, b1, b2] = .ok i := by
  cases c <;> cases m <;> cases x <;> exact ⟨_, rfl⟩

/-! ## What a cell makes is encoded by its opcode -/

/-- Every instruction that the cell makes can be fetched at these widths, and is encoded as `op` and the operand
bytes. -/
def Entry.EncodesAs (op : Byte) (c : Entry) : Prop :=
  ∀ m x bs i, c.Makes m x bs i → i.wellFormed m x = true ∧ encode i = op :: bs

/-- The cells of a row encode as the opcodes from `n` on. -/
def RowEncodes (n : Nat) (row : List Entry) : Prop :=
  match row with
  | [] => True
  | c :: row => c.EncodesAs (BitVec.ofNat 8 n) ∧ RowEncodes (n + 1) row

theorem RowEncodes.cell {n k : Nat} {row : List Entry} {c : Entry} (encodes : RowEncodes n row)
    (e : row[k]? = some c) : c.EncodesAs (BitVec.ofNat 8 (n + k)) := by
  induction row generalizing n k with
  | nil => simp at e
  | cons d row ih =>
    obtain ⟨head, tail⟩ := encodes
    cases k with
    | zero => cases e; exact head
    | succ k => simpa [Nat.add_assoc, Nat.add_comm 1] using ih tail (k := k) (by simpa using e)

/-- The map of R94, row by row. -/
theorem row_encodes {r : Nat} {row : List Entry} (e : opcodeMap[r]? = some row) : RowEncodes (r * 16) row := by
  obtain ⟨inside, -⟩ := List.getElem?_eq_some_iff.mp e
  have : r < 16 := inside
  interval_cases r <;> cases e <;>
    refine ⟨?_, ?_, ?_, ?_, ?_, ?_, ?_, ?_, ?_, ?_, ?_, ?_, ?_, ?_, ?_, ?_, trivial⟩ <;> rintro m x bs i ⟨⟩ <;>
    simp [encode, Instr.wellFormed, *]

theorem opcodeEntry_encodes {op : Byte} {c : Entry} (e : opcodeEntry op = some c) : c.EncodesAs op := by
  obtain ⟨row, inMap, inRow⟩ := Option.bind_eq_some_iff.mp e
  have cell := (row_encodes inMap).cell inRow
  rwa [Nat.div_add_mod', BitVec.ofNat_toNat, BitVec.setWidth_eq] at cell

/-! ## Every instruction is made by the cell of its opcode -/

/-- The instructions by format; those left to the last case have the format `D8`. -/
theorem encode_cell {m x : Bool} {i : Instr} (fetchable : i.wellFormed m x = true) :
    ∃ op bs, encode i = op :: bs ∧ ∃ c, opcodeEntry op = some c ∧ c.Makes m x bs i := by
  cases i with
  | php | aslAcc | phd | clc | incAcc | tcs | plp | rolAcc | pld | sec | decAcc | tsc | rti | pha | lsrAcc | phk | cli
    | phy | tcd | rts | pla | rorAcc | rtl | sei | ply | tdc | dey | txa | phb | tya | txs | txy | tay | tax | plb
    | clv | tsx | tyx | iny | dex | wai | cld | phx | stp | inx | nop | xba | sed | plx | xce =>
    exact ⟨_, _, rfl, _, rfl, .imp _⟩
  | tsbAbs | oraAbs | aslAbs | oraAbsY | trbAbs | oraAbsX | aslAbsX | jsrAbs | bitAbs | andAbs | rolAbs | andAbsY
    | bitAbsX | andAbsX | rolAbsX | jmpAbs | eorAbs | lsrAbs | eorAbsY | eorAbsX | lsrAbsX | jmpInd | adcAbs | rorAbs
    | adcAbsY | jmpIndX | adcAbsX | rorAbsX | styAbs | staAbs | stxAbs | staAbsY | stzAbs | staAbsX | stzAbsX | ldyAbs
    | ldaAbs | ldxAbs | ldaAbsY | ldyAbsX | ldaAbsX | ldxAbsY | cpyAbs | cmpAbs | decAbs | cmpAbsY | jmlLongInd
    | cmpAbsX | decAbsX | cpxAbs | sbcAbs | incAbs | sbcAbsY | jsrIndX | sbcAbsX | incAbsX =>
    exact ⟨_, _, rfl, _, rfl, .a16 _ _⟩
  | oraLong | oraLongX | jsl | andLong | andLongX | eorLong | jmlLong | eorLongX | adcLong | adcLongX | staLong
    | staLongX | ldaLong | ldaLongX | cmpLong | cmpLongX | sbcLong | sbcLongX =>
    exact ⟨_, _, rfl, _, rfl, .a24 _ _⟩
  | bpl | bmi | bvc | bvs | bra | bcc | bcs | bne | beq =>
    exact ⟨_, _, rfl, _, rfl, .rel8 _ _⟩
  | wdm | rep | sep =>
    exact ⟨_, _, rfl, _, rfl, .imm8 _ _⟩
  | brk | cop =>
    exact ⟨_, _, rfl, _, rfl, .sig _ _⟩
  | mvp | mvn =>
    exact ⟨_, _, rfl, _, rfl, .blk _ _ _⟩
  | per | brl =>
    exact ⟨_, _, rfl, _, rfl, .rel16 _ _⟩
  | pea =>
    exact ⟨_, _, rfl, _, rfl, .imm16 _ _⟩
  | oraImm | andImm | eorImm | adcImm | bitImm | ldaImm | cmpImm | sbcImm =>
    exact ⟨_, _, rfl, _, rfl, .immM _ _ fetchable⟩
  | ldyImm | ldxImm | cpyImm | cpxImm =>
    exact ⟨_, _, rfl, _, rfl, .immX _ _ fetchable⟩
  | _ => exact ⟨_, _, rfl, _, rfl, .d8 _ _⟩

theorem encode_ne_nil {m x : Bool} {i : Instr} (fetchable : i.wellFormed m x = true) : encode i ≠ [] := by
  obtain ⟨op, bs, bytes, -⟩ := encode_cell fetchable
  rw [bytes]
  exact List.cons_ne_nil op bs

theorem decode_cons {op : Byte} {c : Entry} (e : opcodeEntry op = some c) (m x : Bool) (bs : List Byte) :
    decode m x (op :: bs) = c.decode m x bs := by
  simp only [decode, e]

/-- Settles O2: an instruction is made by the cell of its opcode, and that cell reads back what it makes. -/
theorem decodeOfEncode : Obligations.DecodeOfEncode := by
  intro m x i rest fetchable
  obtain ⟨op, bs, bytes, c, inMap, makes⟩ := encode_cell fetchable
  rw [bytes, List.cons_append, decode_cons inMap]
  exact makes.decode rest

theorem opcodeEntry_total (op : Byte) : ∃ c, opcodeEntry op = some c :=
  Option.isSome_iff_exists.mp ((by decide : ∀ op, (opcodeEntry op).isSome = true) op)

theorem encode_of_decode {m x : Bool} {bs : List Byte} {i : Instr} (e : decode m x bs = .ok i) :
    i.wellFormed m x = true ∧ ∃ rest, bs = encode i ++ rest := by
  cases bs with
  | nil => cases e
  | cons op operands =>
    obtain ⟨c, inMap⟩ := opcodeEntry_total op
    rw [decode_cons inMap] at e
    obtain ⟨used, rest, rfl, makes⟩ := Entry.makes_of_decode e
    obtain ⟨fetchable, bytes⟩ := opcodeEntry_encodes inMap m x used i makes
    exact ⟨fetchable, rest, by rw [bytes, List.cons_append]⟩

/-- Settles O3: a cell takes its operand bytes from the head of the list, and what it makes is encoded by them. -/
theorem encodeOfDecode : Obligations.EncodeOfDecode := by
  refine ⟨fun m x bs i e => encode_of_decode e, fun m x op b1 b2 b3 => ?_⟩
  obtain ⟨c, inMap⟩ := opcodeEntry_total op
  obtain ⟨i, e⟩ := Entry.decode_three m x c b1 b2 b3
  rw [← decode_cons inMap] at e
  obtain ⟨fetchable, rest, bytes⟩ := encode_of_decode e
  have head := congrArg List.head? bytes
  rw [List.head?_append_of_ne_nil _ (encode_ne_nil fetchable)] at head
  exact ⟨i, e, head.symm⟩

end Sys2Proof

/-! Lengths and samples of the opcode map (`spec/30_encoding.md` R91, R92, R99). -/

namespace Sys2Proof

open Sys2Proof.Machine

/-- Settles O1: each word runs through the decoder. -/
theorem sampleWordsDecode : Obligations.SampleWordsDecode :=
  ⟨rfl, rfl, rfl, rfl, rfl, rfl, rfl, rfl, rfl, rfl⟩

theorem instructionLength_immM : ∀ op ∈ ([0x09, 0x29, 0x49, 0x69, 0x89, 0xA9, 0xC9, 0xE9] : List Byte), ∀ m x,
    instructionLength m x op = if m then 2 else 3 := by decide

theorem instructionLength_immX : ∀ op ∈ ([0xA0, 0xA2, 0xC0, 0xE0] : List Byte), ∀ m x,
    instructionLength m x op = if x then 2 else 3 := by decide

theorem instructionLength_fixed : ∀ op : Byte, op ∉ ([0x09, 0x29, 0x49, 0x69, 0x89, 0xA9, 0xC9, 0xE9] : List Byte) →
    op ∉ ([0xA0, 0xA2, 0xC0, 0xE0] : List Byte) → ∀ m x, instructionLength m x op = instructionLength true true op := by
  decide

/-- Settles O5: the lengths of the two lists, and that any other opcode has its length at `P.M = P.X = 1`. -/
theorem onlyWidthFlagsChangeLength : Obligations.OnlyWidthFlagsChangeLength := by
  refine fun m x m' x' op => ⟨fun h => instructionLength_immM op h m x, fun h => instructionLength_immX op h m x,
    fun notM notX => ?_⟩
  rw [instructionLength_fixed op notM notX m x, instructionLength_fixed op notM notX m' x']

/-- Only BRK and COP have a byte that is not fetched (D26). -/
theorem fetchedLength_eq_instructionLength : ∀ op : Byte, op ≠ 0x00 → op ≠ 0x02 → ∀ m x,
    fetchedLength m x op = instructionLength m x op := by decide

section
variable {m x : Bool} {i : Instr} {op : Byte} {bs : List Byte}

/-- The cell of the first byte of an encoding makes the instruction of the other bytes. -/
theorem makes_of_encode (fetchable : i.wellFormed m x = true) (bytes : encode i = op :: bs) :
    ∃ c, opcodeEntry op = some c ∧ c.Makes m x bs i := by
  obtain ⟨op', bs', bytes', makes⟩ := encode_cell fetchable
  rw [bytes] at bytes'
  cases bytes'
  exact makes

theorem encode_length (fetchable : i.wellFormed m x = true) (bytes : encode i = op :: bs) :
    (encode i).length = instructionLength m x op := by
  obtain ⟨c, inMap, makes⟩ := makes_of_encode fetchable bytes
  rw [bytes, List.length_cons, makes.length, instructionLength, inMap, Nat.add_comm]
  rfl

theorem encode_length_le (fetchable : i.wellFormed m x = true) : (encode i).length ≤ 4 := by
  obtain ⟨op, bs, bytes, c, -, makes⟩ := encode_cell fetchable
  have := c.operandBytes_le m x
  rw [bytes, List.length_cons, makes.length]
  omega

theorem eq_brk_of_encode (fetchable : i.wellFormed m x = true) (bytes : encode i = 0x00 :: bs) :
    ∃ sig, i = .brk sig := by
  obtain ⟨c, inMap, makes⟩ := makes_of_encode fetchable bytes
  cases inMap
  cases makes
  exact ⟨_, rfl⟩

theorem eq_cop_of_encode (fetchable : i.wellFormed m x = true) (bytes : encode i = 0x02 :: bs) :
    ∃ sig, i = .cop sig := by
  obtain ⟨c, inMap, makes⟩ := makes_of_encode fetchable bytes
  cases inMap
  cases makes
  exact ⟨_, rfl⟩

/-- How many bytes of an instruction a step fetches: all, but of BRK and COP the opcode byte alone (R92, D26). -/
def Instr.fetchedBytes (i : Instr) : Nat :=
  match i with
  | .brk _ | .cop _ => 1
  | _ => (encode i).length

theorem Instr.fetchedBytes_eq_length (notBrk : ∀ sig, i ≠ .brk sig) (notCop : ∀ sig, i ≠ .cop sig) :
    i.fetchedBytes = (encode i).length := by
  unfold Instr.fetchedBytes
  split
  · exact absurd rfl (notBrk _)
  · exact absurd rfl (notCop _)
  · rfl

theorem fetchedLength_of_encode (fetchable : i.wellFormed m x = true) (bytes : encode i = op :: bs) :
    fetchedLength m x op = i.fetchedBytes := by
  by_cases isBrk : op = 0x00
  · subst isBrk
    obtain ⟨sig, rfl⟩ := eq_brk_of_encode fetchable bytes
    rfl
  by_cases isCop : op = 0x02
  · subst isCop
    obtain ⟨sig, rfl⟩ := eq_cop_of_encode fetchable bytes
    rfl
  rw [fetchedLength_eq_instructionLength op isBrk isCop, ← encode_length fetchable bytes, Instr.fetchedBytes_eq_length]
  · rintro sig rfl
    exact isBrk (List.head_eq_of_cons_eq bytes).symm
  · rintro sig rfl
    exact isCop (List.head_eq_of_cons_eq bytes).symm

end

end Sys2Proof

/-! The `Step` command (`spec/30_encoding.md` R90). -/

namespace Sys2Proof.Machine

open Sys2Proof.Claims

/-- A ready core runs the instruction that decodes at `PBR:PC`. -/
theorem step_decoded {s : State} {i : Instr} (ready : s.Ready)
    (supported : s.params.supported (byteIn s s.PBR s.PC) = true)
    (decodes : decode (s.flag .M) (s.flag .X) s.codeBytes = .ok i) :
    let n := fetchedLength (s.flag .M) (s.flag .X) (byteIn s s.PBR s.PC)
    step s = exec i { s with
      PC := s.PC + BitVec.ofNat 16 n, bus := pairReads s s.PBR s.PC n,
      out := .step (s.params.cost (byteIn s s.PBR s.PC)) .ok } := by
  obtain ⟨live, noInput, running⟩ := ready
  exact ((step_command live noInput).trans (stepCommand_running running)).trans (stepRunning_decoded supported decodes)

/-- Settles O6: the instruction that decodes runs on the state in which all its bytes are fetched. -/
theorem stepRunsTheDecodedInstruction : Obligations.StepRunsTheDecodedInstruction :=
  fun _ _ ready supported decodes => step_decoded ready supported decodes

theorem codeBytes_getElem? (s : State) {k : Nat} (h : k < 4) :
    s.codeBytes[k]? = some (byteIn s s.PBR (s.PC + BitVec.ofNat 16 k)) := by
  interval_cases k
  · rw [show s.PC + BitVec.ofNat 16 0 = s.PC from BitVec.add_zero _]; rfl
  all_goals rfl

/-- At most four bytes that stand at `PBR:PC` are the first of the bytes that the decoder is given. -/
theorem codeBytes_of_placed {s : State} {bs : List Byte} (short : bs.length ≤ 4)
    (placed : ∀ k b, bs[k]? = some b → byteIn s s.PBR (s.PC + BitVec.ofNat 16 k) = b) : bs <+: s.codeBytes := by
  refine List.prefix_iff_getElem?.mpr fun k h => ?_
  rw [codeBytes_getElem? s (by omega), placed k _ (List.getElem?_eq_getElem h)]

/-- Settles O7: the bytes placed are the head of what the decoder is given, so that they decode to the instruction. -/
theorem stepRunsPlacedInstruction : Obligations.StepRunsPlacedInstruction := by
  intro s i ready fetchable supported placed n
  obtain ⟨rest, code⟩ := codeBytes_of_placed (encode_length_le fetchable) placed
  have decodes := decodeOfEncode (s.flag .M) (s.flag .X) i rest fetchable
  rw [code] at decodes
  obtain ⟨op, bs, bytes, -⟩ := encode_cell fetchable
  have opcode : byteIn s s.PBR s.PC = op := by
    have first := placed 0 op (by rw [bytes]; rfl)
    rwa [show s.PC + BitVec.ofNat 16 0 = s.PC from BitVec.add_zero _] at first
  have fetched : fetchedLength (s.flag .M) (s.flag .X) (byteIn s s.PBR s.PC) = n := by
    rw [opcode]
    exact fetchedLength_of_encode fetchable bytes
  rw [step_decoded ready supported decodes, fetched]

theorem execWdm_unsupported (v : Byte) {s : State} (unsupported : s.params.supported 0x42 = false) :
    exec (.wdm v) s = .next { s with out := .step s.params.cycMin (.unsupported 0x42) } := by
  simp only [exec, execWdm, unsupported]
  rfl

theorem execWdm_supported (v : Byte) {s : State} (supported : s.params.supported 0x42 = true) :
    exec (.wdm v) s = .next s := by
  simp only [exec, execWdm, supported, if_true]

/-- Settles O9: the unsupported branch of a step and of WDM, and the default list. -/
theorem unsupportedOpcodeIsReported : Obligations.UnsupportedOpcodeIsReported := by
  refine ⟨?_, fun v s => ⟨rfl, execWdm_unsupported v, execWdm_supported v⟩, fun op => ?_⟩
  · rintro s op ⟨live, noInput, running⟩ rfl unsupported
    rw [step_command live noInput, stepCommand_running running, stepRunning_unsupported (s := s.setBus []) unsupported,
      pairReads_succ]
    rfl
  · simp [Parameters.supported, Config.parameters]

/-- Before the first `Reset` the commands that need one are refused (`10_state.md` R41). -/
theorem runInput_refused {s : State} {i : Input} (notLive : s.live = false) (h : i ∈ [.step, .nmi, .irq]) :
    runInput i s = .refused .beforeFirstReset := by
  simp only [List.mem_cons, List.not_mem_nil, or_false] at h
  rcases h with rfl | rfl | rfl <;> simp [runInput, notLive]

theorem step_noInput {s : State} (noInput : s.inputs = []) : step s = runInput .step s := by
  simp only [step, noInput]

/-- Settles O10: a step runs the head of the list, and with an empty list a `Step`. -/
theorem firstInputIsTaken : Obligations.FirstInputIsTaken := by
  refine ⟨fun s a v rest canonical first => ?_, fun s rest live first => ?_, fun s live noInput => ?_,
    fun s notLive command => ?_⟩
  · exact ⟨_, step_input first, Memory.read_write canonical _ _, fun k other => Memory.read_write_other _ _ other, rfl⟩
  · exact (step_input first).trans (runInput_step live)
  · exact step_command live noInput
  · rcases command with noInput | ⟨i, rest, first, h⟩
    · rw [step_noInput noInput, runInput_refused notLive (by decide)]
    · exact (step_input first).trans (runInput_refused (s := s.setInputs rest) notLive h)

/-- Settles O12: `Reset` reads the parameters and the vector alone, so that a second one finds what the first one
left. -/
theorem resetLeavesTheResetValues : Obligations.ResetLeavesTheResetValues := by
  intro s rest first c
  have resets : ∀ u rest, u.inputs = .reset :: rest → step u = .next (resetCommand (u.setInputs rest)) :=
    fun _ _ first => step_input first
  refine ⟨_, (resets s rest first).trans (congrArg _ (resetCommand_eq _)), rfl, fun rest' => ?_⟩
  exact (resets _ rest' rfl).trans (congrArg _ (resetCommand_eq _))

/-- Settles O19: the lines, in the order of their priority. -/
theorem schedulerPriority : Obligations.SchedulerPriority := by
  intro l
  refine ⟨fun r => ?_, fun r n => ?_, fun r n i => ?_, fun r n i => ?_, fun c => ?_, fun c => ?_⟩
  · simp [serviceInputs, r]
  · simp [serviceInputs, r, n]
  · simp [serviceInputs, r, n, i]
  · simp [serviceInputs, r, n, i]
  · simp [driverInputs, c]
  · simp [driverInputs, c]

end Sys2Proof.Machine

/-! What every instruction and every command keeps (`spec/10_state.md` R22, R33, R34, R42; `spec/60_exceptions.md` R360,
R375). An instruction is a run of a few shared operations; each of them changes only the control registers it names and
keeps the invariant, and what is so of two operations is so of one after the other. -/

namespace Sys2Proof.Machine

open Sys2Proof.Claims

/-! ## The frame of the control registers -/

/-- What the write summary of R42 speaks of; `run` stands for leaving `Running` (R375). -/
inductive Control
  | S
  | D
  | DB
  | PBR
  | E
  | run

/-- Of the control registers `t` differs from `s` in none but those of `w`, and in no field that is not the core's. -/
structure ControlFrame (w : List Control) (s t : State) : Prop where
  S : .S ∉ w → t.S = s.S
  D : .D ∉ w → t.D = s.D
  DB : .DB ∉ w → t.DB = s.DB
  PBR : .PBR ∉ w → t.PBR = s.PBR
  E : .E ∉ w → t.E = s.E
  run : .run ∉ w → s.run = .running → t.run = .running
  live : t.live = s.live
  inputs : t.inputs = s.inputs
  params : t.params = s.params

/-- `t` can come after `s` in an instruction that writes the control registers `w`. -/
structure Keeps (w : List Control) (s t : State) : Prop where
  frame : ControlFrame w s t
  inv : s.Inv → t.Inv

section
variable {w w' : List Control} {s t u : State}

theorem ControlFrame.trans (first : ControlFrame w s t) (second : ControlFrame w t u) : ControlFrame w s u where
  S h := (second.S h).trans (first.S h)
  D h := (second.D h).trans (first.D h)
  DB h := (second.DB h).trans (first.DB h)
  PBR h := (second.PBR h).trans (first.PBR h)
  E h := (second.E h).trans (first.E h)
  run h running := second.run h (first.run h running)
  live := second.live.trans first.live
  inputs := second.inputs.trans first.inputs
  params := second.params.trans first.params

theorem ControlFrame.mono (sub : w ⊆ w') (frame : ControlFrame w s t) : ControlFrame w' s t where
  S h := frame.S fun m => h (sub m)
  D h := frame.D fun m => h (sub m)
  DB h := frame.DB fun m => h (sub m)
  PBR h := frame.PBR fun m => h (sub m)
  E h := frame.E fun m => h (sub m)
  run h := frame.run fun m => h (sub m)
  live := frame.live
  inputs := frame.inputs
  params := frame.params

theorem Keeps.trans (first : Keeps w s t) (second : Keeps w t u) : Keeps w s u :=
  ⟨first.frame.trans second.frame, fun inv => second.inv (first.inv inv)⟩

theorem Keeps.mono (sub : w ⊆ w') (keeps : Keeps w s t) : Keeps w' s t := ⟨keeps.frame.mono sub, keeps.inv⟩

/-- Outside the control registers an instruction keeps the invariant if it leaves the width flags, keeps narrow index
registers narrow and memory canonical. -/
theorem Keeps.of_registers
    (same : t = { s with
      A := t.A, X := t.X, Y := t.Y, PC := t.PC, P := t.P, mem := t.mem, out := t.out, bus := t.bus })
    (M : t.flag .M = s.flag .M) (X : t.flag .X = s.flag .X) (narrow : s.IndexNarrow → t.IndexNarrow)
    (canonical : s.mem.wf = true → t.mem.wf = true) : Keeps w s t := by
  have E : t.E = s.E := by rw [same]
  have S : t.S = s.S := by rw [same]
  have params : t.params = s.params := by rw [same]
  refine ⟨?_, fun ⟨index, emulation, wf, legal⟩ => ⟨narrow index, ?_, canonical wf, params ▸ legal⟩⟩
  · rw [same]
    exact ⟨fun _ => rfl, fun _ => rfl, fun _ => rfl, fun _ => rfl, fun _ => rfl, fun _ h => h, rfl, rfl, rfl⟩
  · rw [State.EmulationNarrow, E, S, M, X]
    exact emulation

/-- A change of flags that leaves the two width flags. -/
theorem Keeps.of_flags (same : t = { s with A := t.A, PC := t.PC, P := t.P, out := t.out, bus := t.bus })
    (M : t.flag .M = s.flag .M) (X : t.flag .X = s.flag .X) : Keeps w s t := by
  have sameX : t.X = s.X := by rw [same]
  have sameY : t.Y = s.Y := by rw [same]
  have sameMem : t.mem = s.mem := by rw [same]
  refine .of_registers (by rw [same]) M X (fun index => ?_) fun wf => sameMem ▸ wf
  rw [State.IndexNarrow, X, sameX, sameY]
  exact index

/-- A change of fields of which neither the frame nor the invariant speaks. -/
theorem Keeps.of_other (same : t = { s with A := t.A, PC := t.PC, out := t.out, bus := t.bus }) : Keeps w s t :=
  .of_flags (by rw [same]) (by rw [same]; rfl) (by rw [same]; rfl)

/-- Writes of memory. -/
theorem Keeps.of_memory (same : t = { s with mem := t.mem, bus := t.bus })
    (canonical : s.mem.wf = true → t.mem.wf = true) : Keeps w s t :=
  .of_registers (by rw [same]) (by rw [same]; rfl) (by rw [same]; rfl) (by rw [same]; exact id) canonical

theorem Keeps.refl : Keeps w s s := .of_other rfl

end

/-- `f` answers a next state, and writes no control register but those of `w`. -/
def Answers (w : List Control) (f : State → Result) : Prop := ∀ s, ∃ t, f s = .next t ∧ Keeps w s t

/-! ## The shared operations -/

theorem highByte_page (v : Word) : highByte (0x0100 ||| (v &&& 0x00FF)) = 0x01 := by
  refine BitVec.eq_of_getLsbD_eq fun k hk => ?_
  interval_cases k <;> simp [highByte]

theorem highByte_low (v : Word) : highByte (v &&& 0x00FF) = 0 := highByte_takeBits_narrow v

theorem getFlag_forced (v : Byte) : getFlag .M (forced true v) = true ∧ getFlag .X (forced true v) = true := by
  simp [getFlag, forced, Flag.bit]

theorem truncated_forced (p : Byte) (v : Word) : truncated (forced true p) v = v &&& 0x00FF :=
  if_pos (getFlag_forced p).2

theorem highByte_truncated {p : Byte} (narrow : getFlag .X p = true) (v : Word) : highByte (truncated p v) = 0 := by
  have : p.getLsbD 4 = true := narrow
  rw [truncated, if_pos this, highByte_low]

section
variable {w : List Control} (s : State)

theorem keeps_setA (v : Word) : Keeps w s (s.setA v) := .of_other rfl

theorem keeps_setPC (v : Word) : Keeps w s (s.setPC v) := .of_other rfl

theorem keeps_setP {p : Byte} (M : getFlag .M p = s.flag .M) (X : getFlag .X p = s.flag .X) : Keeps w s (s.setP p) :=
  .of_flags rfl M X

theorem keeps_setNZ (d : Width) (v : Word) : Keeps w s (s.setNZ d v) :=
  .of_flags rfl (by simp) (by simp)

theorem keeps_putFlag {f : Flag} (notM : .M ≠ f) (notX : .X ≠ f) (b : Bool) : Keeps w s (s.putFlag f b) :=
  .of_flags rfl (by simp [notM]) (by simp [notX])

theorem keeps_writeA (d : Width) (v : Word) : Keeps w s (s.writeA d v) := .of_other (by cases d <;> rfl)

theorem keeps_writeX {d : Width} (index : d = s.wX) (v : Word) : Keeps w s (s.writeX d v) := by
  subst index
  refine .of_registers rfl rfl rfl (fun index narrow => ⟨?_, (index narrow).2⟩) id
  have d : s.wX = .narrow := State.wX_of_narrow narrow
  rw [d]
  exact highByte_takeBits_narrow v

theorem keeps_writeY {d : Width} (index : d = s.wX) (v : Word) : Keeps w s (s.writeY d v) := by
  subst index
  refine .of_registers rfl rfl rfl (fun index narrow => ⟨(index narrow).1, ?_⟩) id
  have d : s.wX = .narrow := State.wX_of_narrow narrow
  rw [d]
  exact highByte_takeBits_narrow v

/-- `SetS` clamps to page 1 in emulation mode (R36). -/
theorem keeps_writeS (v : Word) : Keeps [.S] s (s.writeS v) := by
  refine ⟨⟨fun h => by simp at h, fun _ => rfl, fun _ => rfl, fun _ => rfl, fun _ => rfl,
    fun _ h => h, rfl, rfl, rfl⟩, fun ⟨index, emulation, canonical, legal⟩ => ⟨index, fun h => ?_, canonical, legal⟩⟩
  obtain ⟨M, X, -⟩ := emulation h
  refine ⟨M, X, ?_⟩
  have mode : s.E = true := h
  rw [State.writeS_eq, mode]
  exact highByte_page v

/-- `SetP` sets the width flags in emulation mode and truncates narrow index registers (R35). -/
theorem keeps_writeP (v : Byte) : Keeps w s (s.writeP v) := by
  rw [State.writeP_eq]
  refine ⟨⟨fun _ => rfl, fun _ => rfl, fun _ => rfl, fun _ => rfl, fun _ => rfl, fun _ h => h, rfl, rfl, rfl⟩,
    fun ⟨_, emulation, canonical, legal⟩ => ⟨fun narrow => ?_, fun h => ?_, canonical, legal⟩⟩
  · exact ⟨highByte_truncated narrow _, highByte_truncated narrow _⟩
  · have mode : s.E = true := h
    obtain ⟨-, -, page⟩ := emulation mode
    obtain ⟨M, X⟩ := getFlag_forced v
    refine ⟨?_, ?_, page⟩
    · rw [mode]; exact M
    · rw [mode]; exact X

theorem keeps_busRead (ea : Ea) : Keeps w s (busRead ea s).2 := .of_other rfl

theorem keeps_busWrite (ea : Ea) (v : Byte) : Keeps w s (busWrite ea v s) :=
  .of_memory rfl fun wf => Memory.wf_write v wf ea.cell_lt

theorem keeps_read16 (ea : Ea) : Keeps w s (read16 ea s).2 := (keeps_busRead s ea).trans (keeps_busRead _ _)

theorem keeps_read24 (ea : Ea) : Keeps w s (read24 ea s).2 :=
  ((keeps_busRead s ea).trans (keeps_busRead _ _)).trans (keeps_busRead _ _)

theorem keeps_push8 (v : Byte) : Keeps [.S] s (push8 v s) := (keeps_busWrite s _ v).trans (keeps_writeS _ _)

theorem keeps_push16 (v : Word) : Keeps [.S] s (push16 v s) := (keeps_push8 s _).trans (keeps_push8 _ _)

theorem keeps_pushData (d : Width) (v : Word) : Keeps [.S] s (pushData d v s) := by
  cases d
  · exact keeps_push8 s _
  · exact keeps_push16 s v

theorem keeps_pull8 : Keeps [.S] s (pull8 s).2 := (keeps_writeS s _).trans (keeps_busRead _ _)

theorem keeps_pull16 : Keeps [.S] s (pull16 s).2 := (keeps_pull8 s).trans (keeps_pull8 _)

theorem keeps_pullData (d : Width) : Keeps [.S] s (pullData d s).2 := by
  cases d
  · exact keeps_pull8 s
  · exact keeps_pull16 s

theorem keeps_operandRead (src : Source) (d : Width) : Keeps w s (operandRead src d s).2 :=
  .of_other (by rw [operandRead_state])

theorem keeps_writeData (ea : Ea) (d : Width) (v : Word) : Keeps w s (writeData ea d v s) :=
  .of_memory (by rw [writeData_eq]) (writeData_wf ea d v s)

theorem keeps_operandWrite (m : Mode) (d : Width) (v : Word) : Keeps w s (operandWrite m d v s) :=
  (Keeps.of_other (by rw [effectiveAddress_state])).trans (keeps_writeData _ _ _ _)

theorem keeps_modify (target : Target) (d : Width) (r : Word → Word) {p : Word → Byte → Byte}
    (M : ∀ v q, getFlag .M (p v q) = getFlag .M q) (X : ∀ v q, getFlag .X (p v q) = getFlag .X q) :
    Keeps w s (modify target d r p s) := by
  cases target with
  | acc => exact (keeps_setP s (M _ _) (X _ _)).trans (keeps_writeA _ _ _)
  | mem m =>
    have read : Keeps w s (readData (effectiveAddress m s).1 d (effectiveAddress m s).2).2 :=
      keeps_operandRead s (.mem m) d
    exact (read.trans (keeps_setP _ (M _ _) (X _ _))).trans (keeps_writeData _ _ _ _)

theorem keeps_setD (v : Word) : Keeps [.D] s (s.setD v) :=
  ⟨⟨fun _ => rfl, fun h => by simp at h, fun _ => rfl, fun _ => rfl, fun _ => rfl,
    fun _ h => h, rfl, rfl, rfl⟩, id⟩

theorem keeps_setDB (v : Byte) : Keeps [.DB] s (s.setDB v) :=
  ⟨⟨fun _ => rfl, fun _ => rfl, fun h => by simp at h, fun _ => rfl, fun _ => rfl,
    fun _ h => h, rfl, rfl, rfl⟩, id⟩

theorem keeps_setPBR (v : Byte) : Keeps [.PBR] s (s.setPBR v) :=
  ⟨⟨fun _ => rfl, fun _ => rfl, fun _ => rfl, fun h => by simp at h, fun _ => rfl,
    fun _ h => h, rfl, rfl, rfl⟩, id⟩

theorem keeps_setRun (v : RunState) : Keeps [.run] s (s.setRun v) :=
  ⟨⟨fun _ => rfl, fun _ => rfl, fun _ => rfl, fun _ => rfl, fun _ => rfl,
    fun h => by simp at h, rfl, rfl, rfl⟩, id⟩

theorem keeps_setRun_running : Keeps w s (s.setRun .running) :=
  ⟨⟨fun _ => rfl, fun _ => rfl, fun _ => rfl, fun _ => rfl, fun _ => rfl, fun _ _ => rfl, rfl, rfl, rfl⟩, id⟩

theorem keeps_pushBank : Keeps [.S] s (if s.E then s else push8 s.PBR s) := by
  split
  · exact .refl
  · exact keeps_push8 s _

/-- The entry sequence (R368). -/
theorem keeps_interrupt (vecN vecE ret : Word) : Keeps [.S, .PBR] s (interrupt vecN vecE ret s) := by
  have frame := fun p => ((keeps_pushBank s).trans (keeps_push16 _ ret)).trans (keeps_push8 _ p)
  have flags := fun p => ((frame p).trans (keeps_putFlag _ (f := .D) nofun nofun false)).trans
    (keeps_putFlag _ (f := .I) nofun nofun true)
  have bank := fun p => ((flags p).mono (w' := [.S, .PBR]) (by simp)).trans ((keeps_setPBR _ 0x00).mono (by simp))
  exact (((bank _).trans (keeps_read16 _ _)).trans (keeps_setPC _ _)).trans (keeps_setRun_running _)

/-- The return from an interrupt (`45_system.md` R342). -/
theorem keeps_returnFromInterrupt : Keeps [.S, .PBR] s (returnFromInterrupt s) := by
  have status := (keeps_pull8 s).trans (keeps_writeP _ (pull8 s).1)
  have target := fun v => (status.trans (keeps_pull16 _)).trans (keeps_setPC _ v)
  unfold returnFromInterrupt
  dsimp only
  split
  · exact (target _).mono (by simp)
  · exact (((target _).trans (keeps_pull8 _)).mono (by simp)).trans ((keeps_setPBR _ _).mono (by simp))

end

/-! ## The shared meanings -/

theorem operandRead_wX (src : Source) (d : Width) (s : State) : (operandRead src d s).2.wX = s.wX := by
  rw [operandRead_state]
  rfl

theorem pullData_wX (d : Width) (s : State) : (pullData d s).2.wX = s.wX := by
  rw [pullData_eq]
  rfl

section
variable {w : List Control} (src : Source) (m : Mode) (target : Target)

theorem loadA_answers : Answers w (loadA src) := fun s =>
  ⟨_, rfl, ((keeps_operandRead s src _).trans (keeps_writeA _ _ _)).trans (keeps_setNZ _ _ _)⟩

theorem loadX_answers : Answers w (loadX src) := fun s =>
  ⟨_, rfl, ((keeps_operandRead s src _).trans (keeps_writeX _ (operandRead_wX ..).symm _)).trans (keeps_setNZ _ _ _)⟩

theorem loadY_answers : Answers w (loadY src) := fun s =>
  ⟨_, rfl, ((keeps_operandRead s src _).trans (keeps_writeY _ (operandRead_wX ..).symm _)).trans (keeps_setNZ _ _ _)⟩

theorem addToA_answers (b : Bool) (d : Width) (v : Word) : Answers w (addToA b d v) := fun s =>
  ⟨_, rfl, (keeps_setP s (by simp [State.flag]) (by simp [State.flag])).trans (keeps_writeA _ _ _)⟩

theorem addWithCarry_answers : Answers w (addWithCarry src) := fun s =>
  have ⟨t, answer, keeps⟩ := addToA_answers false s.wA (operandRead src s.wA s).1 (operandRead src s.wA s).2
  ⟨t, answer, (keeps_operandRead s src _).trans keeps⟩

theorem subtractWithBorrow_answers : Answers w (subtractWithBorrow src) := fun s =>
  have ⟨t, answer, keeps⟩ := addToA_answers true s.wA (operandRead src s.wA s).1 (operandRead src s.wA s).2
  ⟨t, answer, (keeps_operandRead s src _).trans keeps⟩

theorem keeps_compareFlags (s : State) (d : Width) (a v : Word) : Keeps w s (s.setP (compareFlags d a v s.P)) :=
  keeps_setP s (by simp [State.flag]) (by simp [State.flag])

theorem compareA_answers : Answers w (compareA src) := fun s =>
  ⟨_, rfl, (keeps_operandRead s src _).trans (keeps_compareFlags _ _ _ _)⟩

theorem compareX_answers : Answers w (compareX src) := fun s =>
  ⟨_, rfl, (keeps_operandRead s src _).trans (keeps_compareFlags _ _ _ _)⟩

theorem compareY_answers : Answers w (compareY src) := fun s =>
  ⟨_, rfl, (keeps_operandRead s src _).trans (keeps_compareFlags _ _ _ _)⟩

theorem logicalA_answers (f : Word → Word → Word) : Answers w (logicalA f src) := fun s =>
  ⟨_, rfl, ((keeps_operandRead s src _).trans (keeps_writeA _ _ _)).trans (keeps_setNZ _ _ _)⟩

theorem bitTest_answers (copyNV : Bool) : Answers w (bitTest copyNV src) := fun s =>
  ⟨_, rfl, (keeps_operandRead s src _).trans
    (keeps_setP _ (by cases copyNV <;> simp [State.flag]) (by cases copyNV <;> simp [State.flag]))⟩

theorem storeA_answers : Answers w (storeA m) := fun s => ⟨_, rfl, keeps_operandWrite s m _ _⟩

theorem storeX_answers : Answers w (storeX m) := fun s => ⟨_, rfl, keeps_operandWrite s m _ _⟩

theorem storeY_answers : Answers w (storeY m) := fun s => ⟨_, rfl, keeps_operandWrite s m _ _⟩

theorem storeZero_answers : Answers w (storeZero m) := fun s => ⟨_, rfl, keeps_operandWrite s m _ _⟩

theorem testAndSet_answers : Answers w (testAndSet m) := fun s =>
  ⟨_, rfl, keeps_modify s _ _ _ (by simp) (by simp)⟩

theorem testAndReset_answers : Answers w (testAndReset m) := fun s =>
  ⟨_, rfl, keeps_modify s _ _ _ (by simp) (by simp)⟩

theorem arithmeticShiftLeft_answers : Answers w (arithmeticShiftLeft target) := fun s =>
  ⟨_, rfl, keeps_modify s _ _ _ (by simp) (by simp)⟩

theorem logicalShiftRight_answers : Answers w (logicalShiftRight target) := fun s =>
  ⟨_, rfl, keeps_modify s _ _ _ (by simp) (by simp)⟩

theorem rotateLeftThroughC_answers : Answers w (rotateLeftThroughC target) := fun s =>
  ⟨_, rfl, keeps_modify s _ _ _ (by simp) (by simp)⟩

theorem rotateRightThroughC_answers : Answers w (rotateRightThroughC target) := fun s =>
  ⟨_, rfl, keeps_modify s _ _ _ (by simp) (by simp)⟩

theorem incrementTarget_answers : Answers w (incrementTarget target) := fun s =>
  ⟨_, rfl, keeps_modify s _ _ _ (by simp) (by simp)⟩

theorem decrementTarget_answers : Answers w (decrementTarget target) := fun s =>
  ⟨_, rfl, keeps_modify s _ _ _ (by simp) (by simp)⟩

theorem transferToA_answers (v : Word) : Answers w (transferToA v) := fun s =>
  ⟨_, rfl, (keeps_writeA s _ _).trans (keeps_setNZ _ _ _)⟩

theorem transferToX_answers (v : Word) : Answers w (transferToX v) := fun s =>
  ⟨_, rfl, (keeps_writeX s rfl _).trans (keeps_setNZ _ _ _)⟩

theorem transferToY_answers (v : Word) : Answers w (transferToY v) := fun s =>
  ⟨_, rfl, (keeps_writeY s rfl _).trans (keeps_setNZ _ _ _)⟩

theorem branch_answers (cond : Bool) (r : Byte) : Answers w (branch cond r) := fun s =>
  ⟨_, branch_eq cond r s, .of_other rfl⟩

theorem blockMove_answers (delta : Word) (dst src : Byte) : Answers [.DB] (blockMove delta dst src) := fun s => by
  refine ⟨_, blockMove_eq delta dst src s, ⟨fun _ => rfl, fun _ => rfl, fun h => by simp at h, fun _ => rfl,
    fun _ => rfl, fun _ h => h, rfl, rfl, rfl⟩, fun ⟨_, emulation, canonical, legal⟩ =>
      ⟨fun narrow => ?_, emulation, Memory.wf_write _ canonical (Ea.cell_lt _), legal⟩⟩
  have d : s.wX = .narrow := State.wX_of_narrow narrow
  rw [d]
  exact ⟨highByte_takeBits_narrow _, highByte_takeBits_narrow _⟩

end

/-! ## The mode switch -/

/-- XCE into native mode (`44_mode_and_flags.md` R310). -/
theorem execXce_native {s : State} (clear : s.flag .C = false) :
    exec .xce s = .next { s with P := Machine.putFlag .C s.E s.P, E := false } := by
  simp only [exec, execXce, clear]
  rfl

/-- XCE into emulation mode: `SetP` and `SetS` force the narrow state (R310, `10_state.md` R34). -/
theorem execXce_emulation {s : State} (set : s.flag .C = true) :
    exec .xce s = .next { s with
      P := forced true (Machine.putFlag .C s.E s.P), E := true, X := s.X &&& 0x00FF, Y := s.Y &&& 0x00FF,
      S := 0x0100 ||| (s.S &&& 0x00FF) } := by
  simp only [exec, execXce, set, State.writeP_eq, State.writeS_eq, State.setE_E, if_true, truncated_forced]
  rfl

theorem execXce_answers : Answers [.S, .E] (exec .xce) := fun s => by
  cases mode : s.flag .C
  · refine ⟨_, execXce_native mode, ⟨fun _ => rfl, fun _ => rfl, fun _ => rfl, fun _ => rfl, fun h => by simp at h,
      fun _ h => h, rfl, rfl, rfl⟩, fun ⟨index, _, canonical, legal⟩ => ⟨fun h => index ?_, nofun, canonical, legal⟩⟩
    simpa [State.flag] using h
  · refine ⟨_, execXce_emulation mode, ⟨fun h => by simp at h, fun _ => rfl, fun _ => rfl, fun _ => rfl,
      fun h => by simp at h, fun _ h => h, rfl, rfl, rfl⟩, fun ⟨_, _, canonical, legal⟩ => ⟨fun _ => ?_, fun _ => ?_,
      canonical, legal⟩⟩
    · exact ⟨highByte_low _, highByte_low _⟩
    · exact ⟨(getFlag_forced _).1, (getFlag_forced _).2, highByte_page _⟩

end Sys2Proof.Machine

/-! Every instruction and every command by what it keeps. -/

namespace Sys2Proof.Machine

open Sys2Proof.Claims

/-! ## Instructions -/

/-- The write summary of R42 for the control registers, and which instructions leave `Running`. -/
def writes : Instr → List Control
  | .xce => [.S, .E]
  | .pld => [.S, .D]
  | .tcd => [.D]
  | .plb => [.S, .DB]
  | .mvn _ _ | .mvp _ _ => [.DB]
  | .jmlLong _ | .jmlLongInd _ => [.PBR]
  | .jsl _ | .rtl | .rti | .brk _ | .cop _ => [.S, .PBR]
  | .txs | .tcs | .pha | .phx | .phy | .php | .phb | .phk | .phd | .pea _ | .pei _ | .per _ | .pla | .plx | .ply | .plp
  | .jsrAbs _ | .jsrIndX _ | .rts => [.S]
  | .wai | .stp => [.run]
  | _ => []

theorem execWdm_answers (v : Byte) : Answers [] (exec (.wdm v)) := fun s => by
  cases supported : s.params.supported 0x42
  · exact ⟨_, execWdm_unsupported v supported, .of_other rfl⟩
  · exact ⟨_, execWdm_supported v supported, .refl⟩

theorem execPlb_answers : Answers [.S, .DB] execPlb := fun s =>
  ⟨_, rfl, (((keeps_pull8 s).mono (by simp)).trans ((keeps_setDB _ _).mono (by simp))).trans (keeps_setNZ _ _ _)⟩

theorem execPld_answers : Answers [.S, .D] execPld := fun s =>
  ⟨_, rfl, (((keeps_pull16 s).mono (by simp)).trans ((keeps_setD _ _).mono (by simp))).trans (keeps_setNZ _ _ _)⟩

theorem execJsl_answers (a : Addr) : Answers [.S, .PBR] (execJsl a) := fun s =>
  ⟨_, rfl, ((((keeps_push8 s _).trans (keeps_push16 _ _)).mono (by simp)).trans
    ((keeps_setPBR _ _).mono (by simp))).trans (keeps_setPC _ _)⟩

theorem execRtl_answers : Answers [.S, .PBR] execRtl := fun s =>
  ⟨_, rfl, ((((keeps_pull16 s).trans (keeps_setPC _ _)).trans (keeps_pull8 _)).mono (by simp)).trans
    ((keeps_setPBR _ _).mono (by simp))⟩

/-- Every instruction answers a next state, writes only its control registers and keeps the invariant. The instructions
stand by the shared meaning that runs them. -/
theorem exec_answers (i : Instr) : Answers (writes i) (exec i) := by
  cases i with
  | ldaIndDpX | ldaSr | ldaDp | ldaLongIndDp | ldaImm | ldaAbs | ldaLong | ldaIndDpY | ldaIndDp | ldaIndSrY
    | ldaDpX | ldaLongIndDpY | ldaAbsY | ldaAbsX | ldaLongX =>
    exact loadA_answers _
  | adcIndDpX | adcSr | adcDp | adcLongIndDp | adcImm | adcAbs | adcLong | adcIndDpY | adcIndDp | adcIndSrY
    | adcDpX | adcLongIndDpY | adcAbsY | adcAbsX | adcLongX =>
    exact addWithCarry_answers _
  | sbcIndDpX | sbcSr | sbcDp | sbcLongIndDp | sbcImm | sbcAbs | sbcLong | sbcIndDpY | sbcIndDp | sbcIndSrY
    | sbcDpX | sbcLongIndDpY | sbcAbsY | sbcAbsX | sbcLongX =>
    exact subtractWithBorrow_answers _
  | cmpIndDpX | cmpSr | cmpDp | cmpLongIndDp | cmpImm | cmpAbs | cmpLong | cmpIndDpY | cmpIndDp | cmpIndSrY
    | cmpDpX | cmpLongIndDpY | cmpAbsY | cmpAbsX | cmpLongX =>
    exact compareA_answers _
  | cpxImm | cpxDp | cpxAbs =>
    exact compareX_answers _
  | cpyImm | cpyDp | cpyAbs =>
    exact compareY_answers _
  | ldxImm | ldxDp | ldxAbs | ldxDpY | ldxAbsY =>
    exact loadX_answers _
  | ldyImm | ldyDp | ldyAbs | ldyDpX | ldyAbsX =>
    exact loadY_answers _
  | staIndDpX | staSr | staDp | staLongIndDp | staAbs | staLong | staIndDpY | staIndDp | staIndSrY | staDpX
    | staLongIndDpY | staAbsY | staAbsX | staLongX =>
    exact storeA_answers _
  | stxDp | stxAbs | stxDpY =>
    exact storeX_answers _
  | styDp | styAbs | styDpX =>
    exact storeY_answers _
  | stzDp | stzDpX | stzAbs | stzAbsX =>
    exact storeZero_answers _
  | oraIndDpX | oraSr | oraDp | oraLongIndDp | oraImm | oraAbs | oraLong | oraIndDpY | oraIndDp | oraIndSrY
    | oraDpX | oraLongIndDpY | oraAbsY | oraAbsX | oraLongX | andIndDpX | andSr | andDp | andLongIndDp | andImm
    | andAbs | andLong | andIndDpY | andIndDp | andIndSrY | andDpX | andLongIndDpY | andAbsY | andAbsX
    | andLongX | eorIndDpX | eorSr | eorDp | eorLongIndDp | eorImm | eorAbs | eorLong | eorIndDpY | eorIndDp
    | eorIndSrY | eorDpX | eorLongIndDpY | eorAbsY | eorAbsX | eorLongX =>
    exact logicalA_answers _ _
  | bitDp | bitAbs | bitDpX | bitAbsX =>
    exact bitTest_answers _ _
  | tsbDp | tsbAbs =>
    exact testAndSet_answers _
  | trbDp | trbAbs =>
    exact testAndReset_answers _
  | aslDp | aslAbs | aslDpX | aslAbsX | aslAcc =>
    exact arithmeticShiftLeft_answers _
  | lsrDp | lsrAbs | lsrDpX | lsrAbsX | lsrAcc =>
    exact logicalShiftRight_answers _
  | rolDp | rolAbs | rolDpX | rolAbsX | rolAcc =>
    exact rotateLeftThroughC_answers _
  | rorDp | rorAbs | rorDpX | rorAbsX | rorAcc =>
    exact rotateRightThroughC_answers _
  | incDp | incAbs | incDpX | incAbsX | incAcc =>
    exact incrementTarget_answers _
  | decDp | decAbs | decDpX | decAbsX | decAcc =>
    exact decrementTarget_answers _
  | bitImm => exact fun s => bitTest_answers _ s.params.bitImmWritesNV s
  | txa | tya => exact fun s => transferToA_answers _ s
  | tax | tsx | tyx => exact fun s => transferToX_answers _ s
  | tay | txy => exact fun s => transferToY_answers _ s
  | inx | dex => exact fun s => ⟨_, rfl, (keeps_writeX s rfl _).trans (keeps_setNZ _ _ _)⟩
  | iny | dey => exact fun s => ⟨_, rfl, (keeps_writeY s rfl _).trans (keeps_setNZ _ _ _)⟩
  | xba | tsc | tdc => exact fun s => ⟨_, rfl, (keeps_setA s _).trans (keeps_setNZ _ _ _)⟩
  | tcd => exact fun s => ⟨_, rfl, (keeps_setD s _).trans (keeps_setNZ _ _ _)⟩
  | txs | tcs => exact fun s => ⟨_, rfl, keeps_writeS s _⟩
  | mvn | mvp => exact blockMove_answers _ _ _
  | clc | sec | cli | sei | cld | sed | clv => exact fun s => ⟨_, rfl, keeps_putFlag s (by decide) (by decide) _⟩
  | rep | sep => exact fun s => ⟨_, rfl, keeps_writeP s _⟩
  | xce => exact execXce_answers
  | nop => exact fun s => ⟨_, rfl, .refl⟩
  | wdm v => exact execWdm_answers v
  | wai | stp => exact fun s => ⟨_, rfl, keeps_setRun s _⟩
  | pha | phx | phy => exact fun s => ⟨_, rfl, keeps_pushData s _ _⟩
  | php | phb | phk => exact fun s => ⟨_, rfl, keeps_push8 s _⟩
  | phd | pea | per => exact fun s => ⟨_, rfl, keeps_push16 s _⟩
  | pei => exact fun s => ⟨_, rfl, (keeps_read16 s _).trans (keeps_push16 _ _)⟩
  | pla => exact fun s => ⟨_, rfl, ((keeps_pullData s _).trans (keeps_writeA _ _ _)).trans (keeps_setNZ _ _ _)⟩
  | plx => exact fun s =>
      ⟨_, rfl, ((keeps_pullData s _).trans (keeps_writeX _ (pullData_wX _ s).symm _)).trans (keeps_setNZ _ _ _)⟩
  | ply => exact fun s =>
      ⟨_, rfl, ((keeps_pullData s _).trans (keeps_writeY _ (pullData_wX _ s).symm _)).trans (keeps_setNZ _ _ _)⟩
  | plp => exact fun s => ⟨_, rfl, (keeps_pull8 s).trans (keeps_writeP _ _)⟩
  | plb => exact execPlb_answers
  | pld => exact execPld_answers
  | bpl | bmi | bvc | bvs | bra | bcc | bcs | bne | beq => exact fun s => branch_answers _ _ s
  | brl | jmpAbs => exact fun s => ⟨_, rfl, keeps_setPC s _⟩
  | jmpInd | jmpIndX => exact fun s => ⟨_, rfl, (keeps_read16 s _).trans (keeps_setPC _ _)⟩
  | jmlLong => exact fun s => ⟨_, rfl, (keeps_setPBR s _).trans (keeps_setPC _ _)⟩
  | jmlLongInd => exact fun s => ⟨_, rfl, ((keeps_read24 s _).trans (keeps_setPBR _ _)).trans (keeps_setPC _ _)⟩
  | jsrAbs => exact fun s => ⟨_, rfl, (keeps_push16 s _).trans (keeps_setPC _ _)⟩
  | jsrIndX => exact fun s => ⟨_, rfl, ((keeps_push16 s _).trans (keeps_read16 _ _)).trans (keeps_setPC _ _)⟩
  | jsl a => exact execJsl_answers a
  | rts => exact fun s => ⟨_, rfl, (keeps_pull16 s).trans (keeps_setPC _ _)⟩
  | rtl => exact execRtl_answers
  | brk | cop => exact fun s => ⟨_, rfl, keeps_interrupt s _ _ _⟩
  | rti => exact fun s => ⟨_, rfl, keeps_returnFromInterrupt s⟩

theorem exec_frame {i : Instr} {s t : State} (e : exec i s = .next t) : ControlFrame (writes i) s t := by
  obtain ⟨u, answer, keeps⟩ := exec_answers i s
  rw [answer] at e
  cases e
  exact keeps.frame

theorem writes_E {i : Instr} : .E ∈ writes i → i = .xce := by
  delta writes
  cases i <;> simp

theorem writes_D {i : Instr} : .D ∈ writes i → i = .pld ∨ i = .tcd := by
  delta writes
  cases i <;> simp

theorem writes_DB {i : Instr} : .DB ∈ writes i → i = .plb ∨ ∃ dst src, i = .mvn dst src ∨ i = .mvp dst src := by
  delta writes
  cases i <;> simp

theorem writes_PBR {i : Instr} : .PBR ∈ writes i → i = .rtl ∨ i = .rti ∨ (∃ a, i = .jmlLong a ∨ i = .jsl a) ∨
    (∃ a, i = .jmlLongInd a) ∨ ∃ sig, i = .brk sig ∨ i = .cop sig := by
  delta writes
  cases i <;> simp

theorem writes_S {i : Instr} : .S ∈ writes i →
    i ∈ [.txs, .tcs, .xce, .pha, .phx, .phy, .php, .phb, .phk, .phd, .pla, .plx, .ply, .plp, .plb, .pld, .rts, .rtl,
      .rti] ∨ (∃ v, i = .pea v ∨ i = .per v ∨ i = .jsrAbs v ∨ i = .jsrIndX v) ∨
    (∃ d, i = .pei d ∨ i = .brk d ∨ i = .cop d) ∨ ∃ a, i = .jsl a := by
  delta writes
  cases i <;> simp

theorem writes_run {i : Instr} : .run ∈ writes i → i = .wai ∨ i = .stp := by
  delta writes
  cases i <;> simp

/-- Settles O25: an instruction changes only the control registers that its writes name. -/
theorem controlRegisterWriters : Obligations.ControlRegisterWriters := by
  intro i s t e
  have frame := exec_frame e
  refine ⟨fun notXce => frame.E fun h => notXce (writes_E h), fun notPld notTcd => frame.D fun h => ?_,
    fun notPlb notMove => frame.DB fun h => ?_, fun notRtl notRti notLong notInd notSoft => frame.PBR fun h => ?_,
    fun notImplied notWord notByte notJsl => frame.S fun h => ?_, frame.live, frame.inputs, frame.params⟩
  · rcases writes_D h with pld | tcd
    exacts [notPld pld, notTcd tcd]
  · rcases writes_DB h with plb | ⟨dst, src, mvn | mvp⟩
    exacts [notPlb plb, (notMove dst src).1 mvn, (notMove dst src).2 mvp]
  · rcases writes_PBR h with rtl | rti | ⟨a, jml | jsl⟩ | ⟨a, jmlInd⟩ | ⟨sig, brk | cop⟩
    exacts [notRtl rtl, notRti rti, (notLong a).1 jml, (notLong a).2 jsl, notInd a jmlInd, (notSoft sig).1 brk,
      (notSoft sig).2 cop]
  · rcases writes_S h with implied | ⟨v, pea | per | jsr | jsrX⟩ | ⟨d, pei | brk | cop⟩ | ⟨a, jsl⟩
    exacts [notImplied implied, (notWord v).1 pea, (notWord v).2.1 per, (notWord v).2.2.1 jsr, (notWord v).2.2.2 jsrX,
      (notByte d).1 pei, (notByte d).2.1 brk, (notByte d).2.2 cop, notJsl a jsl]

/-- Settles O20: WAI and STP set the run state; any other instruction does not write it. -/
theorem onlyWaiAndStpLeaveRunning : Obligations.OnlyWaiAndStpLeaveRunning := by
  intro i s running
  obtain ⟨t, answer, keeps⟩ := exec_answers i s
  refine ⟨t, answer, ?_, ?_, fun notWai notStp => keeps.frame.run (fun h => ?_) running⟩
  · rintro rfl
    cases answer
    rfl
  · rintro rfl
    cases answer
    rfl
  · rcases writes_run h with wai | stp
    exacts [notWai wai, notStp stp]

/-- Settles O18: the meanings of WAI and STP. -/
theorem waitAndStopChangeOnlyTheRunState : Obligations.WaitAndStopChangeOnlyTheRunState :=
  fun _ => ⟨⟨rfl, rfl⟩, rfl, rfl⟩

/-! ## Commands -/

/-- Four bytes always decode, so that a step in `Running` always executes (`30_encoding.md` R94). -/
theorem stepRunning_keeps (op : Byte) (s : State) : ∃ t, stepRunning op s = .next t ∧ (s.Inv → t.Inv) := by
  cases supported : s.params.supported op
  · exact ⟨_, stepRunning_unsupported supported, id⟩
  · obtain ⟨i, decodes, -⟩ := encodeOfDecode.2 (s.flag .M) (s.flag .X) (s.byteAt (.pair s.PBR s.PC))
      (s.byteAt (.pair s.PBR (s.PC + 1))) (s.byteAt (.pair s.PBR (s.PC + 2))) (s.byteAt (.pair s.PBR (s.PC + 3)))
    rw [stepRunning_decoded supported decodes]
    obtain ⟨t, answer, keeps⟩ := exec_answers i _
    exact ⟨t, answer, keeps.inv⟩

theorem stepCommand_keeps (s : State) : ∃ t, stepCommand s = .next t ∧ (s.Inv → t.Inv) := by
  by_cases running : s.run = .running
  · rw [stepCommand_running running]
    exact stepRunning_keeps _ (s.setBus [])
  · exact ⟨_, stepCommand_sleeping running, id⟩

/-- A legal `RESET_P` has both width flags set (`70_reset_and_hazards.md` R400). -/
theorem widths_of_legal {c : Parameters} (legal : c.legal = true) :
    getFlag .M c.resetP = true ∧ getFlag .X c.resetP = true := by
  have bits : ∀ p : Byte, p &&& 0x30 = 0x30 → getFlag .M p = true ∧ getFlag .X p = true := by decide
  exact bits _ (by simpa [Parameters.legal] using legal)

theorem resetCommand_inv {s : State} (inv : s.Inv) : (resetCommand s).Inv := by
  obtain ⟨-, -, canonical, legal⟩ := inv
  obtain ⟨M, X⟩ := widths_of_legal legal
  rw [resetCommand_eq]
  exact ⟨fun _ => ⟨highByte_low _, highByte_low _⟩, fun _ => ⟨M, X, (by decide : highByte 0x01FF = 0x01)⟩,
    canonical, legal⟩

theorem nmiCommand_inv {s : State} (inv : s.Inv) : (nmiCommand s).Inv := by
  by_cases stopped : s.run = .stopped
  · rw [nmiCommand_stopped s stopped]
    exact inv
  · rw [nmiCommand_taken stopped]
    exact (keeps_interrupt _ _ _ _).inv inv

theorem irqCommand_inv {s : State} (inv : s.Inv) : (irqCommand s).Inv := by
  cases taken : irqTaken s
  · rw [irqCommand_refused taken]
    exact inv
  · rw [irqCommand_taken taken]
    exact (keeps_interrupt _ _ _ _).inv inv

/-- What a machine that has been reset takes, and before that a `Reset` and the environment's writes. -/
theorem runInput_keeps {i : Input} {s : State} (meant : s.live = true ∨ i = .reset ∨ ∃ a v, i = .busWrite a v) :
    ∃ t, runInput i s = .next t ∧ (s.Inv → t.Inv) := by
  cases i with
  | reset => exact ⟨_, rfl, resetCommand_inv⟩
  | busWrite a v =>
    exact ⟨_, rfl, fun ⟨index, emulation, canonical, legal⟩ =>
      ⟨index, emulation, Memory.wf_write v canonical a.isLt, legal⟩⟩
  | step =>
    have live : s.live = true := by simpa using meant
    rw [runInput_step live]
    exact stepCommand_keeps s
  | nmi => exact ⟨_, runInput_nmi (by simpa using meant), nmiCommand_inv⟩
  | irq => exact ⟨_, runInput_irq (by simpa using meant), irqCommand_inv⟩

/-- Settles O11: every command of a machine that has been reset answers a next state. -/
theorem everyStepGoesOn : Obligations.EveryStepGoesOn := by
  intro s meant
  cases pending : s.inputs with
  | nil =>
    have live : s.live = true := by simpa [pending] using meant
    obtain ⟨t, answer, -⟩ := stepCommand_keeps s
    exact ⟨t, (step_command live pending).trans answer⟩
  | cons i rest =>
    have first : s.live = true ∨ i = .reset ∨ ∃ a v, i = .busWrite a v := by simpa [pending] using meant
    obtain ⟨t, answer, -⟩ := runInput_keeps (s := s.setInputs rest) first
    exact ⟨t, (step_input pending).trans answer⟩

/-- An input that is not refused is one that the machine takes. -/
theorem meant_of_next {i : Input} {s t : State} (e : runInput i s = .next t) :
    s.live = true ∨ i = .reset ∨ ∃ a v, i = .busWrite a v := by
  cases live : s.live
  · cases i <;> simp_all [runInput]
  · exact .inl rfl

theorem runInput_inv {i : Input} {s t : State} (inv : s.Inv) (e : runInput i s = .next t) : t.Inv := by
  obtain ⟨u, answer, keeps⟩ := runInput_keeps (meant_of_next e)
  rw [answer] at e
  cases e
  exact keeps inv

/-- Settles O22: a step runs one input, and every input keeps the invariant. -/
theorem everyStepKeepsTheInvariant : Obligations.EveryStepKeepsTheInvariant := by
  intro s t inv e
  cases pending : s.inputs with
  | nil =>
    rw [step_noInput pending] at e
    exact runInput_inv inv e
  | cons i rest =>
    rw [step_input pending] at e
    exact runInput_inv (s := s.setInputs rest) inv e

/-- Settles O23: the reset state, field by field. -/
theorem resetMeetsTheInvariant : Obligations.ResetMeetsTheInvariant :=
  ⟨fun _ => ⟨rfl, rfl⟩, fun _ => ⟨rfl, rfl, rfl⟩, rfl, rfl⟩

end Sys2Proof.Machine

/-! A core that does not run (`spec/60_exceptions.md` R375, R385). -/

namespace Sys2Proof.Machine

open Sys2Proof.Claims

/-- No `Reset` is pending, nor any input that wakes a core in this run state (D20, D22). -/
structure Asleep (s : State) : Prop where
  live : s.live = true
  noReset : .reset ∉ s.inputs
  noWake : s.run = .stopped ∨
    (s.run = .halted ∧ .nmi ∉ s.inputs ∧ (s.params.irqWakesWait = true → .irq ∉ s.inputs))

/-- From `s` to `t` one pending input was taken, and at most the environment wrote memory. -/
structure Slept (s t : State) : Prop where
  live : t.live = s.live
  params : t.params = s.params
  inputs : t.inputs = s.inputs.tail
  snapshot : t.snapshot = s.snapshot
  memory : ∀ k, (∀ a v, .busWrite a v ∈ s.inputs → a.toNat ≠ k) → t.mem.read k = s.mem.read k

section
variable {s t : State}

theorem Asleep.notRunning (asleep : Asleep s) : s.run ≠ .running := by
  rcases asleep.noWake with run | ⟨run, -⟩ <;> simp [run]

theorem Asleep.stopped_of_nmi (asleep : Asleep s) (pending : .nmi ∈ s.inputs) : s.run = .stopped :=
  asleep.noWake.resolve_right fun ⟨_, noNmi, _⟩ => noNmi pending

theorem Asleep.irq_refused (asleep : Asleep s) (pending : .irq ∈ s.inputs) : irqTaken s = false := by
  refine Bool.eq_false_iff.mpr fun taken => ?_
  obtain ⟨running | ⟨halted, wakes⟩, -⟩ := (irqTaken_iff s).mp taken
  · exact asleep.notRunning running
  · rcases asleep.noWake with stopped | ⟨-, -, noIrq⟩
    · simp [halted] at stopped
    · exact noIrq wakes pending

theorem Slept.asleep (slept : Slept s t) (asleep : Asleep s) : Asleep t := by
  have run : t.run = s.run := congrArg Snapshot.run slept.snapshot
  have still : ∀ i, i ∉ s.inputs → i ∉ t.inputs := fun i h m => h (List.mem_of_mem_tail (slept.inputs ▸ m))
  refine ⟨slept.live.trans asleep.live, still _ asleep.noReset, ?_⟩
  rw [run, slept.params]
  exact asleep.noWake.imp_right fun ⟨halted, noNmi, noIrq⟩ => ⟨halted, still _ noNmi, fun w => still _ (noIrq w)⟩

/-- A step of a sleeping core takes the first input and does nothing else. -/
theorem Asleep.step (asleep : Asleep s) : ∃ t, step s = .next t ∧ Slept s t := by
  cases pending : s.inputs with
  | nil =>
    refine ⟨_, (step_command asleep.live pending).trans (stepCommand_sleeping asleep.notRunning), rfl, rfl, ?_, rfl,
      fun _ _ => rfl⟩
    rw [pending]
    rfl
  | cons i rest =>
    have tail : rest = s.inputs.tail := by rw [pending]; rfl
    have first : i ∈ s.inputs := by rw [pending]; exact List.mem_cons_self
    rw [step_input pending]
    cases i with
    | reset => exact absurd first asleep.noReset
    | busWrite a v =>
      exact ⟨_, rfl, rfl, rfl, tail, rfl, fun k h => Memory.read_write_other _ _ (h a v first).symm⟩
    | step =>
      rw [runInput_step (s := s.setInputs rest) asleep.live,
        stepCommand_sleeping (s := s.setInputs rest) asleep.notRunning]
      exact ⟨_, rfl, rfl, rfl, tail, rfl, fun _ _ => rfl⟩
    | nmi =>
      rw [runInput_nmi (s := s.setInputs rest) asleep.live,
        nmiCommand_stopped (s.setInputs rest) (asleep.stopped_of_nmi first)]
      exact ⟨_, rfl, rfl, rfl, tail, rfl, fun _ _ => rfl⟩
    | irq =>
      rw [runInput_irq (s := s.setInputs rest) asleep.live,
        irqCommand_refused (s := s.setInputs rest) (asleep.irq_refused first)]
      exact ⟨_, rfl, rfl, rfl, tail, rfl, fun _ _ => rfl⟩

end

theorem run_succ {s t : State} (n : Nat) (e : step s = .next t) :
    Host.Core.run Sys2Proof.core (n + 1) s = Host.Core.run Sys2Proof.core n t := by
  have e' : Sys2Proof.core.step s = .next t := e
  simp only [Host.Core.run, e']

/-- Settles O21, by induction on the number of steps: a sleeping core is asleep after each of them. -/
theorem sleepingCoreIsUnchanged : Obligations.SleepingCoreIsUnchanged := by
  intro n s live noReset noWake
  have asleep : Asleep s := ⟨live, noReset, noWake⟩
  clear live noReset noWake
  induction n generalizing s with
  | zero => exact ⟨s, rfl, rfl, fun _ _ => rfl⟩
  | succ n ih =>
    obtain ⟨t, answer, slept⟩ := asleep.step
    obtain ⟨u, run, snapshot, memory⟩ := ih t (slept.asleep asleep)
    refine ⟨u, (run_succ n answer).trans run, snapshot.trans slept.snapshot, fun k h => ?_⟩
    have fewer : ∀ a v, .busWrite a v ∈ t.inputs → a.toNat ≠ k := fun a v m =>
      h a v (List.mem_of_mem_tail (slept.inputs ▸ m))
    exact (memory k fewer).trans (slept.memory k h)

end Sys2Proof.Machine

/-! The canonical form of memory (`spec/20_memory.md` R60, R80; log 1). -/

namespace Sys2Proof.Machine

/-- Settles O26: the laws of a write. -/
theorem memoryReadsTheLatestWrite : Obligations.MemoryReadsTheLatestWrite := fun _ k v canonical inside =>
  ⟨Memory.read_write canonical k v, fun _ other => Memory.read_write_other _ v other,
    Memory.wf_write v canonical inside⟩

/-- The first cell of a canonical memory differs from what a memory reads that lists only later ones. -/
theorem Memory.read_head_ne {lo lo' a : Nat} {b : Byte} {m m' : Memory} (canonical : wfFrom lo ((a, b) :: m) = true)
    (later : wfFrom lo' m' = true) (h : a < lo') : Memory.read ((a, b) :: m) a ≠ m'.read a := by
  obtain ⟨-, -, listed, -⟩ := (wfFrom_head lo a b m).mp canonical
  rwa [read_head, if_pos rfl, read_below later h]

theorem Memory.wfFrom_own {lo a : Nat} {b : Byte} {m : Memory} (canonical : wfFrom lo ((a, b) :: m) = true) :
    wfFrom a ((a, b) :: m) = true := by
  obtain ⟨-, inside, listed, tail⟩ := (wfFrom_head lo a b m).mp canonical
  exact (wfFrom_head a a b m).mpr ⟨le_refl a, inside, listed, tail⟩

theorem Memory.ext_of_wfFrom {m m' : Memory} {lo : Nat} (canonical : wfFrom lo m = true)
    (canonical' : wfFrom lo m' = true) (same : ∀ k, k < 2 ^ 24 → m.read k = m'.read k) : m = m' := by
  induction m generalizing m' lo with
  | nil =>
    cases m' with
    | nil => rfl
    | cons c' m' =>
      obtain ⟨a', b'⟩ := c'
      obtain ⟨-, inside', -, -⟩ := (wfFrom_head lo a' b' m').mp canonical'
      exact absurd (same a' inside').symm (read_head_ne canonical' (lo' := a' + 1) rfl (Nat.lt_succ_self a'))
  | cons c m ih =>
    obtain ⟨a, b⟩ := c
    obtain ⟨-, inside, -, tail⟩ := (wfFrom_head lo a b m).mp canonical
    cases m' with
    | nil => exact absurd (same a inside) (read_head_ne canonical (lo' := a + 1) rfl (Nat.lt_succ_self a))
    | cons c' m' =>
      obtain ⟨a', b'⟩ := c'
      obtain ⟨-, inside', -, tail'⟩ := (wfFrom_head lo a' b' m').mp canonical'
      obtain less | rfl | more := lt_trichotomy a a'
      · exact absurd (same a inside) (read_head_ne canonical (wfFrom_own canonical') less)
      · have head : b = b' := by simpa [read_head] using same a inside
        have rest : ∀ k, k < 2 ^ 24 → Memory.read m k = Memory.read m' k := by
          intro k hk
          by_cases at_head : k = a
          · rw [at_head, read_below tail (Nat.lt_succ_self a), read_below tail' (Nat.lt_succ_self a)]
          · simpa [read_head, at_head] using same k hk
        rw [head, ih tail tail' rest]
      · exact absurd (same a' inside').symm (read_head_ne canonical' (wfFrom_own canonical) more)

/-- Settles O27, by induction on the two lists: their first cells must be the same one. -/
theorem canonicalMemoriesAreExtensional : Obligations.CanonicalMemoriesAreExtensional :=
  fun _ _ canonical canonical' same => Memory.ext_of_wfFrom canonical canonical' same

end Sys2Proof.Machine

/-! The stack (`spec/20_memory.md` R74, `spec/10_state.md` R36): a pull undoes a push, and what pulls give after
pushes. -/

namespace Sys2Proof.Machine

open Sys2Proof.Claims

/-- `S` is where the invariant has it: in page 1 while `E` is set (R34). -/
def OnPage (e : Bool) (p : Word) : Prop := e = true → highByte p = 0x01

theorem State.Inv.onPage {s : State} (inv : s.Inv) : OnPage s.E s.S := fun mode => (inv.2.1 mode).2.2

theorem lowByte_page (v : Word) : lowByte (0x0100 ||| (v &&& 0x00FF)) = lowByte v := by
  refine BitVec.eq_of_getLsbD_eq fun k hk => ?_
  interval_cases k <;> simp [lowByte]

theorem word_ext {v u : Word} (high : highByte v = highByte u) (low : lowByte v = lowByte u) : v = u := by
  rw [← joinBytes_high_low v, high, low, joinBytes_high_low]

theorem lowByte_add_one (v : Word) : lowByte (v + 1) = lowByte v + 1 := BitVec.setWidth_add v 1 (by decide)

theorem lowByte_sub_one_add_one (v : Word) : lowByte (v - 1) + 1 = lowByte v := by
  rw [← lowByte_add_one, BitVec.sub_add_cancel]

theorem stackDown_onPage (e : Bool) (p : Word) : OnPage e (stackDown e p) := by
  rintro rfl
  exact highByte_page _

/-- A pull steps `S` back to where the push had found it. -/
theorem stackUp_stackDown {e : Bool} {p : Word} (page : OnPage e p) : stackUp e (stackDown e p) = p := by
  cases e
  · exact BitVec.sub_add_cancel p 1
  · refine word_ext ((highByte_page _).trans (page rfl).symm) ?_
    rw [show stackUp true (stackDown true p) = 0x0100 ||| ((stackDown true p + 1) &&& 0x00FF) from rfl, lowByte_page,
      lowByte_add_one, show stackDown true p = 0x0100 ||| ((p - 1) &&& 0x00FF) from rfl, lowByte_page,
      lowByte_sub_one_add_one]

theorem stackAfterPushes_succ (e : Bool) (p : Word) (n : Nat) :
    stackAfterPushes e p (n + 1) = stackDown e (stackAfterPushes e p n) := by
  induction n generalizing p with
  | zero => rfl
  | succ n ih => exact ih (stackDown e p)

theorem stackAfterPushes_onPage {e : Bool} {p : Word} (page : OnPage e p) (n : Nat) :
    OnPage e (stackAfterPushes e p n) := by
  cases n with
  | zero => exact page
  | succ n => rw [stackAfterPushes_succ]; exact stackDown_onPage e _

theorem pushSlots_getElem? (e : Bool) (p : Word) (bs : List Byte) (k : Nat) :
    (pushSlots e p bs)[k]? = bs[k]?.map fun b => (stackAfterPushes e p k, b) := by
  induction bs generalizing p k with
  | nil => simp [pushSlots]
  | cons b bs ih =>
    cases k with
    | zero => rfl
    | succ k => exact ih (stackDown e p) k

section
variable {bs : List Byte} {s t : State}

/-- After pushes the pulls walk back through the slots. -/
theorem pullSlot_of_pushed (pushed : Pushed bs s t) (mode : t.E = s.E) (page : OnPage s.E s.S) {k : Nat}
    (h : k ≤ bs.length) : pullSlot t k = stackAfterPushes s.E s.S (bs.length - k) := by
  induction k with
  | zero => exact pushed.2.2
  | succ k ih =>
    rw [pullSlot, ih (by omega), mode, show bs.length - k = bs.length - (k + 1) + 1 by omega, stackAfterPushes_succ,
      stackUp_stackDown (stackAfterPushes_onPage page _)]

/-- The last byte pushed is the first byte pulled. -/
theorem pulledByte_of_pushed (pushed : Pushed bs s t) (mode : t.E = s.E) (page : OnPage s.E s.S) {k : Nat} {b : Byte}
    (h : k < bs.length) (e : bs[bs.length - (k + 1)]? = some b) : pulledByte t (k + 1) = b := by
  have slot := List.mem_of_getElem? ((pushSlots_getElem? s.E s.S bs (bs.length - (k + 1))).trans (congrArg _ e))
  have stored := pushed.1 _ slot
  rw [← pullSlot_of_pushed pushed mode page h] at stored
  simpa [pulledByte, byteIn] using stored

/-- Pulling as many bytes as were pushed leaves `S` as it was. -/
theorem pullSlot_length (pushed : Pushed bs s t) (mode : t.E = s.E) (page : OnPage s.E s.S) :
    pullSlot t bs.length = s.S := by
  rw [pullSlot_of_pushed pushed mode page le_rfl, Nat.sub_self]
  rfl

end

/-! ## Pushes -/

@[simp] theorem pushOrder_takeBits (w : Width) (v : Word) : pushOrder w (takeBits w v) = pushOrder w v := by
  cases w <;> simp [pushOrder]

theorem pushOrder_length_le (w : Width) (v : Word) : (pushOrder w v).length ≤ 4 := by cases w <;> simp [pushOrder]

/-- An instruction that reads and then pushes. -/
theorem pushesOnly_of_exec {i : Instr} {reads : List BusOp} {bs : List Byte} {s : State} (canonical : s.mem.wf = true)
    (short : bs.length ≤ 4)
    (e : exec i s = .next (bs.foldl (fun t b => push8 b t) { s with bus := s.bus ++ reads })) :
    PushesOnly i reads bs s :=
  ⟨_, e, pushList_pushed bs { s with bus := s.bus ++ reads } canonical short, by rw [pushList_eq]; rfl⟩

/-- An instruction that only pushes. -/
theorem pushesOnly_of_exec_push {i : Instr} {bs : List Byte} {s : State} (canonical : s.mem.wf = true)
    (short : bs.length ≤ 4) (e : exec i s = .next (bs.foldl (fun t b => push8 b t) s)) : PushesOnly i [] bs s :=
  pushesOnly_of_exec canonical short (by rw [List.append_nil]; exact e)

/-- A push of a register of width `w`. -/
theorem pushesOnly_of_pushData {i : Instr} {w : Width} {v : Word} {s : State} (canonical : s.mem.wf = true)
    (e : exec i s = .next (pushData w (takeBits w v) s)) : PushesOnly i [] (pushOrder w v) s :=
  pushesOnly_of_exec_push canonical (pushOrder_length_le w v) (by rw [e, pushData_eq, pushOrder_takeBits])

theorem add_eq_ofNat (v u : Word) : v + u = BitVec.ofNat 16 (v.toNat + u.toNat) := by
  rw [BitVec.ofNat_add, BitVec.ofNat_toNat, BitVec.ofNat_toNat, BitVec.setWidth_eq, BitVec.setWidth_eq]

theorem add_zeroExtend_eq_ofNat (v : Word) (d : Byte) : v + zeroExtend d = BitVec.ofNat 16 (v.toNat + d.toNat) := by
  rw [add_eq_ofNat, zeroExtend_toNat]

theorem directPage_eq (d : Byte) (s : State) : directPage d s = Ea.pair 0x00 (BitVec.ofNat 16 (s.D.toNat + d.toNat)) :=
  congrArg (Ea.pair 0x00) (add_zeroExtend_eq_ofNat s.D d)

/-- PEI reads its word before it pushes (`41_load_store_transfer.md` R199). -/
theorem exec_pei (d : Byte) (s : State) :
    let place := BitVec.ofNat 16 (s.D.toNat + d.toNat)
    exec (.pei d) s = .next ([byteIn s 0x00 (place + 1), byteIn s 0x00 place].foldl (fun t b => push8 b t)
      { s with bus := s.bus ++ pairReads s 0x00 place 2 }) := by
  simp only [exec, execPei, directPage_eq, read16_pair, push16, wordIn, highByte_joinBytes, lowByte_joinBytes]
  rfl

/-- Settles O37: each push is a list of bytes pushed one after the other. -/
theorem pushesWriteTheStack : Obligations.PushesWriteTheStack := by
  intro s v d canonical place
  refine ⟨⟨rfl, pushesOnly_of_pushData canonical rfl⟩, ⟨rfl, pushesOnly_of_pushData canonical rfl⟩,
    ⟨rfl, pushesOnly_of_pushData canonical rfl⟩, ⟨rfl, pushesOnly_of_exec_push canonical (by simp) rfl⟩,
    ⟨rfl, pushesOnly_of_exec_push canonical (by simp) rfl⟩, ⟨rfl, pushesOnly_of_exec_push canonical (by simp) rfl⟩,
    ⟨rfl, pushesOnly_of_exec_push canonical (by simp) rfl⟩, ⟨rfl, pushesOnly_of_exec_push canonical (by simp) rfl⟩,
    ⟨rfl, pushesOnly_of_exec canonical (by simp) (exec_pei d s)⟩, rfl, ?_⟩
  rw [← add_eq_ofNat]
  exact pushesOnly_of_exec_push canonical (pushOrder_length_le _ _) rfl

/-! ## Calls and returns (`spec/43_control_transfer.md` R284 to R288) -/

theorem ofInt_toNat_add (v : Word) (d : Int) : BitVec.ofInt 16 (v.toNat + d) = v + BitVec.ofInt 16 d := by
  rw [BitVec.ofInt_add, BitVec.ofInt_natCast, BitVec.ofNat_toNat, BitVec.setWidth_eq]

theorem ofInt_toNat_sub_one (v : Word) : BitVec.ofInt 16 (v.toNat - 1) = v - 1 := by
  rw [Int.sub_eq_add_neg, ofInt_toNat_add, BitVec.sub_eq_add_neg]
  rfl

theorem programPointer_eq (a : Word) (s : State) :
    programPointer a s = .pair s.PBR (BitVec.ofNat 16 (a.toNat + s.X.toNat)) :=
  congrArg (Ea.pair s.PBR) (add_eq_ofNat a s.X)

theorem exec_jsrIndX (a : Word) (s : State) :
    let t := push16 (s.PC - 1) s
    let place := BitVec.ofNat 16 (a.toNat + t.X.toNat)
    exec (.jsrIndX a) s = .next { t with
      PC := wordIn t t.PBR place, bus := t.bus ++ pairReads t t.PBR place 2 } := by
  simp only [exec, execJsrIndX, programPointer_eq, read16_pair]
  rfl

theorem push16_eq_foldl (v : Word) (s : State) :
    push16 v s = [highByte v, lowByte v].foldl (fun t b => push8 b t) s := rfl

theorem push16_push8_eq_foldl (b : Byte) (v : Word) (s : State) :
    push16 v (push8 b s) = [b, highByte v, lowByte v].foldl (fun t b => push8 b t) s := rfl

/-- Settles O53: each call is its pushes and then the load of its target. -/
theorem callsPushTheReturnAddress : Obligations.CallsPushTheReturnAddress := by
  intro a l s canonical ret near far place
  have retEq : s.PC - 1 = ret := (ofInt_toNat_sub_one s.PC).symm
  have nearPushed := pushList_pushed near s canonical (by simp [near])
  have farPushed := pushList_pushed far s canonical (by simp [far])
  refine ⟨⟨rfl, _, rfl, ?_, ?_⟩, ⟨rfl, _, exec_jsrIndX a s, ?_, ?_⟩, rfl, _, rfl, ?_, ?_⟩
  · rw [retEq]; exact nearPushed
  · rw [retEq, push16_eq_foldl, pushList_eq]; rfl
  · rw [retEq]; exact nearPushed
  · rw [retEq, push16_eq_foldl, pushList_eq]; rfl
  · rw [retEq]; exact farPushed
  · rw [retEq, push16_push8_eq_foldl, pushList_eq]; rfl

/-- Settles O54: a pull of the offset, and of the bank after it. -/
theorem returnsPullTheReturnAddress : Obligations.ReturnsPullTheReturnAddress := by
  refine fun s => ⟨⟨rfl, ?_⟩, rfl, ?_⟩
  · simp only [exec, execRts, pull16_eq]
    rfl
  · simp only [exec, execRtl, pull16_eq, pull8_eq]
    simp [pulledByte, pullSlot, byteIn, pullReads, List.range, List.range.loop, State.setPC, State.setPBR]

section
variable {s t : State} {pc : Word} {bank : Byte} {bus : List BusOp}

/-- RTS after pushes of a return address. -/
theorem rts_undoes (inv : s.Inv) (pushed : Pushed [highByte (s.PC - 1), lowByte (s.PC - 1)] s t)
    (same : t = { s with S := t.S, mem := t.mem, PC := pc, bus := bus }) :
    ∃ u, exec .rts t = .next u ∧ u = { s with mem := t.mem, bus := u.bus } := by
  have mode : t.E = s.E := by rw [same]
  have S : pullSlot t 2 = s.S := pullSlot_length pushed mode inv.onPage
  have PC : pulledWord t 1 + 1 = s.PC := by
    rw [pulledWord, pulledByte_of_pushed pushed mode inv.onPage (k := 0) (by simp) rfl,
      pulledByte_of_pushed pushed mode inv.onPage (k := 1) (by simp) rfl, joinBytes_high_low, BitVec.sub_add_cancel]
  refine ⟨_, (returnsPullTheReturnAddress t).1.2, ?_⟩
  rw [PC, S, same]

/-- RTL after pushes of the bank and a return address. -/
theorem rtl_undoes (inv : s.Inv) (pushed : Pushed [s.PBR, highByte (s.PC - 1), lowByte (s.PC - 1)] s t)
    (same : t = { s with S := t.S, mem := t.mem, PBR := bank, PC := pc, bus := bus }) :
    ∃ u, exec .rtl t = .next u ∧ u = { s with mem := t.mem, bus := u.bus } := by
  have mode : t.E = s.E := by rw [same]
  have S : pullSlot t 3 = s.S := pullSlot_length pushed mode inv.onPage
  have PBR : pulledByte t 3 = s.PBR := pulledByte_of_pushed pushed mode inv.onPage (k := 2) (by simp) rfl
  have PC : pulledWord t 1 + 1 = s.PC := by
    rw [pulledWord, pulledByte_of_pushed pushed mode inv.onPage (k := 0) (by simp) rfl,
      pulledByte_of_pushed pushed mode inv.onPage (k := 1) (by simp) rfl, joinBytes_high_low, BitVec.sub_add_cancel]
  refine ⟨_, (returnsPullTheReturnAddress t).2.2, ?_⟩
  rw [PC, S, PBR, same]

end

/-- Settles O55: the bytes a call pushed are those its return pulls. -/
theorem returnUndoesCall : Obligations.ReturnUndoesCall := by
  intro call ret s pair inv
  obtain ⟨-, -, canonical, -⟩ := id inv
  have calls := fun a l => callsPushTheReturnAddress a l s canonical
  simp only [ofInt_toNat_sub_one] at calls
  rcases pair with ⟨a, rfl | rfl, rfl⟩ | ⟨l, rfl, rfl⟩
  · obtain ⟨⟨-, t, answer, pushed, same⟩, -, -⟩ := calls a 0
    obtain ⟨u, return', restored⟩ := rts_undoes inv pushed same
    exact ⟨t, u, answer, return', restored⟩
  · obtain ⟨-, ⟨-, t, answer, pushed, same⟩, -⟩ := calls a 0
    obtain ⟨u, return', restored⟩ := rts_undoes inv pushed same
    exact ⟨t, u, answer, return', restored⟩
  · obtain ⟨-, -, -, t, answer, pushed, same⟩ := calls 0 l
    obtain ⟨u, return', restored⟩ := rtl_undoes inv pushed same
    exact ⟨t, u, answer, return', restored⟩

end Sys2Proof.Machine

/-! Interrupts (`spec/60_exceptions.md` R366 to R368, `spec/45_system.md` R340 to R342). -/

namespace Sys2Proof.Machine

open Sys2Proof.Claims

/-- Settles O13: what the `Nmi` command does in each run state. -/
theorem nmiEntersUnlessStopped : Obligations.NmiEntersUnlessStopped := by
  intro s rest live first canonical
  have answer : step s = .next (nmiCommand (s.setInputs rest)) :=
    (step_input first).trans (runInput_nmi (s := s.setInputs rest) live)
  refine ⟨fun stopped => answer.trans (congrArg _ (nmiCommand_stopped (s.setInputs rest) stopped)), fun runs => ?_⟩
  exact ⟨_, answer.trans (congrArg _ (nmiCommand_taken (s := s.setInputs rest) runs)),
    interrupt_enters _ _ _ _ canonical⟩

/-- Settles O14: what the `Irq` command does where it is taken and where it is not. -/
theorem irqEntersWhenEnabled : Obligations.IrqEntersWhenEnabled := by
  intro s rest live first canonical due
  have taken : irqTaken (s.setInputs rest) = true ↔ due := irqTaken_iff (s.setInputs rest)
  have answer : step s = .next (irqCommand (s.setInputs rest)) :=
    (step_input first).trans (runInput_irq (s := s.setInputs rest) live)
  refine ⟨fun notDue => ?_, fun isDue => ?_⟩
  · have refused := Bool.eq_false_iff.mpr fun h => notDue (taken.mp h)
    exact answer.trans (congrArg _ (irqCommand_refused refused))
  · exact ⟨_, answer.trans (congrArg _ (irqCommand_taken (taken.mpr isDue))), interrupt_enters _ _ _ _ canonical⟩

/-- Settles O15: BRK and COP are the entry sequence. -/
theorem softwareInterruptsEnter : Obligations.SoftwareInterruptsEnter := fun _ s canonical =>
  ⟨⟨rfl, _, rfl, interrupt_enters _ _ _ s canonical⟩, rfl, _, rfl, interrupt_enters _ _ _ s canonical⟩

/-- Settles O16: RTI is the return sequence. -/
theorem rtiPullsTheFrame : Obligations.RtiPullsTheFrame := fun s =>
  ⟨rfl, congrArg Host.Outcome.next (returnFromInterrupt_eq s)⟩

/-- While the invariant holds, `SetP` of the stored status byte changes nothing (R34, R35). -/
theorem forced_eq_self {s : State} (inv : s.Inv) : forced s.E s.P = s.P := by
  obtain ⟨-, emulation, -, -⟩ := inv
  cases mode : s.E
  · rfl
  · obtain ⟨M, X, -⟩ := emulation mode
    refine flags_ext fun f => ?_
    have bits : getFlag f (forced true s.P) = (getFlag f s.P || getFlag f 0x30) := BitVec.getLsbD_or
    cases f <;> simp_all [State.flag, getFlag, Flag.bit]

theorem and_low_eq_self {v : Word} (narrow : highByte v = 0) : v &&& 0x00FF = v :=
  word_ext ((highByte_low v).trans narrow.symm) (lowByte_takeBits .narrow v)

theorem truncated_eq_self {p : Byte} {v : Word} (narrow : getFlag .X p = true → highByte v = 0) :
    truncated p v = v := by
  unfold truncated
  split
  next set => exact and_low_eq_self (narrow set)
  · rfl

/-- RTI after an entry from a state that meets the invariant. -/
theorem returnFromInterrupt_entered {vecN vecE ret : Word} {s t : State} (inv : s.Inv)
    (entered : Entered vecN vecE ret s t) :
    let u := returnFromInterrupt t
    u.PC = ret ∧ u.P = s.P ∧ u.S = s.S ∧ u.X = s.X ∧ u.Y = s.Y ∧ u.E = s.E ∧ u.PBR = if s.E then 0x00 else s.PBR := by
  obtain ⟨index, -⟩ := id inv
  obtain ⟨pushed, -, -, -, bank, -, -, same⟩ := entered
  have mode : t.E = s.E := by rw [same]
  have X : t.X = s.X := by rw [same]
  have Y : t.Y = s.Y := by rw [same]
  have length := pullSlot_length pushed mode inv.onPage
  have pulled := fun k b => pulledByte_of_pushed (k := k) (b := b) pushed mode inv.onPage
  have P : pulledByte t 1 = s.P := pulled 0 _ (by simp) (by cases s.E <;> rfl)
  have PC : pulledWord t 2 = ret := by
    rw [pulledWord, pulled 1 (lowByte ret) (by simp) (by cases s.E <;> rfl),
      pulled 2 (highByte ret) (by simp) (by cases s.E <;> rfl), joinBytes_high_low]
  rw [returnFromInterrupt_eq]
  dsimp only
  rw [P, PC, mode, X, Y, forced_eq_self inv]
  refine ⟨rfl, rfl, ?_, truncated_eq_self fun narrow => (index narrow).1,
    truncated_eq_self fun narrow => (index narrow).2, rfl, ?_⟩
  · cases native : s.E <;> simpa [native] using length
  · cases native : s.E
    · exact pulled 3 s.PBR (by simp [native]) (by simp [native])
    · exact bank

/-- Settles O17: the frame that the entry pushed is the one that RTI pulls. -/
theorem rtiUndoesTheEntry : Obligations.RtiUndoesTheEntry := by
  intro i sig s software inv
  obtain ⟨-, -, canonical, -⟩ := id inv
  obtain ⟨⟨-, t, brk, entered⟩, -, t', cop, entered'⟩ := softwareInterruptsEnter sig s canonical
  rcases software with rfl | rfl
  · exact ⟨t, _, brk, rfl, returnFromInterrupt_entered inv entered⟩
  · exact ⟨t', _, cop, rfl, returnFromInterrupt_entered inv entered'⟩

end Sys2Proof.Machine

/-! The forms of each operation (`spec/30_encoding.md` R94): each is encoded with the opcode that the operation's table
gives, and runs as the operation's shared meaning. -/

namespace Sys2Proof.Machine

open Sys2Proof.Claims

/-- The forms of an operation are encoded with their opcodes and run as `meaning`. -/
def FormsRun {α : Type} (form : α → Option (Byte × Instr)) (meaning : α → State → Result) : Prop :=
  ∀ a op i, form a = some (op, i) → (encode i).head? = some op ∧ ∀ s, exec i s = meaning a s

/-- Whether a form of BIT copies N and V (`42_arithmetic_logic.md` R230, D17). -/
def bitCopies (src : Source) (s : State) : Bool :=
  match src with
  | .imm _ => s.params.bitImmWritesNV
  | .mem _ => true

/-- BIT with what its form copies. -/
def bitTestForm (src : Source) (s : State) : Result := bitTest (bitCopies src s) src s

theorem ldaForm_runs : FormsRun ldaForm loadA := by
  rintro (v | m) op i e
  · cases e; exact ⟨rfl, fun _ => rfl⟩
  · cases m <;> cases e <;> exact ⟨rfl, fun _ => rfl⟩

theorem ldxForm_runs : FormsRun ldxForm loadX := by
  rintro (v | m) op i e
  · cases e; exact ⟨rfl, fun _ => rfl⟩
  · cases m <;> cases e <;> exact ⟨rfl, fun _ => rfl⟩

theorem ldyForm_runs : FormsRun ldyForm loadY := by
  rintro (v | m) op i e
  · cases e; exact ⟨rfl, fun _ => rfl⟩
  · cases m <;> cases e <;> exact ⟨rfl, fun _ => rfl⟩

theorem adcForm_runs : FormsRun adcForm addWithCarry := by
  rintro (v | m) op i e
  · cases e; exact ⟨rfl, fun _ => rfl⟩
  · cases m <;> cases e <;> exact ⟨rfl, fun _ => rfl⟩

theorem sbcForm_runs : FormsRun sbcForm subtractWithBorrow := by
  rintro (v | m) op i e
  · cases e; exact ⟨rfl, fun _ => rfl⟩
  · cases m <;> cases e <;> exact ⟨rfl, fun _ => rfl⟩

theorem cmpForm_runs : FormsRun cmpForm compareA := by
  rintro (v | m) op i e
  · cases e; exact ⟨rfl, fun _ => rfl⟩
  · cases m <;> cases e <;> exact ⟨rfl, fun _ => rfl⟩

theorem cpxForm_runs : FormsRun cpxForm compareX := by
  rintro (v | m) op i e
  · cases e; exact ⟨rfl, fun _ => rfl⟩
  · cases m <;> cases e <;> exact ⟨rfl, fun _ => rfl⟩

theorem cpyForm_runs : FormsRun cpyForm compareY := by
  rintro (v | m) op i e
  · cases e; exact ⟨rfl, fun _ => rfl⟩
  · cases m <;> cases e <;> exact ⟨rfl, fun _ => rfl⟩

theorem andForm_runs : FormsRun andForm andA := by
  rintro (v | m) op i e
  · cases e; exact ⟨rfl, fun _ => rfl⟩
  · cases m <;> cases e <;> exact ⟨rfl, fun _ => rfl⟩

theorem oraForm_runs : FormsRun oraForm orA := by
  rintro (v | m) op i e
  · cases e; exact ⟨rfl, fun _ => rfl⟩
  · cases m <;> cases e <;> exact ⟨rfl, fun _ => rfl⟩

theorem eorForm_runs : FormsRun eorForm exclusiveOrA := by
  rintro (v | m) op i e
  · cases e; exact ⟨rfl, fun _ => rfl⟩
  · cases m <;> cases e <;> exact ⟨rfl, fun _ => rfl⟩

theorem bitForm_runs : FormsRun bitForm bitTestForm := by
  rintro (v | m) op i e
  · cases e; exact ⟨rfl, fun _ => rfl⟩
  · cases m <;> cases e <;> exact ⟨rfl, fun _ => rfl⟩

theorem staForm_runs : FormsRun staForm storeA := by
  intro m op i e
  cases m <;> cases e <;> exact ⟨rfl, fun _ => rfl⟩

theorem stxForm_runs : FormsRun stxForm storeX := by
  intro m op i e
  cases m <;> cases e <;> exact ⟨rfl, fun _ => rfl⟩

theorem styForm_runs : FormsRun styForm storeY := by
  intro m op i e
  cases m <;> cases e <;> exact ⟨rfl, fun _ => rfl⟩

theorem stzForm_runs : FormsRun stzForm storeZero := by
  intro m op i e
  cases m <;> cases e <;> exact ⟨rfl, fun _ => rfl⟩

theorem tsbForm_runs : FormsRun tsbForm testAndSet := by
  intro m op i e
  cases m <;> cases e <;> exact ⟨rfl, fun _ => rfl⟩

theorem trbForm_runs : FormsRun trbForm testAndReset := by
  intro m op i e
  cases m <;> cases e <;> exact ⟨rfl, fun _ => rfl⟩

theorem aslForm_runs : FormsRun aslForm arithmeticShiftLeft := by
  rintro (_ | m) op i e
  · cases e; exact ⟨rfl, fun _ => rfl⟩
  · cases m <;> cases e <;> exact ⟨rfl, fun _ => rfl⟩

theorem lsrForm_runs : FormsRun lsrForm logicalShiftRight := by
  rintro (_ | m) op i e
  · cases e; exact ⟨rfl, fun _ => rfl⟩
  · cases m <;> cases e <;> exact ⟨rfl, fun _ => rfl⟩

theorem rolForm_runs : FormsRun rolForm rotateLeftThroughC := by
  rintro (_ | m) op i e
  · cases e; exact ⟨rfl, fun _ => rfl⟩
  · cases m <;> cases e <;> exact ⟨rfl, fun _ => rfl⟩

theorem rorForm_runs : FormsRun rorForm rotateRightThroughC := by
  rintro (_ | m) op i e
  · cases e; exact ⟨rfl, fun _ => rfl⟩
  · cases m <;> cases e <;> exact ⟨rfl, fun _ => rfl⟩

theorem incForm_runs : FormsRun incForm incrementTarget := by
  rintro (_ | m) op i e
  · cases e; exact ⟨rfl, fun _ => rfl⟩
  · cases m <;> cases e <;> exact ⟨rfl, fun _ => rfl⟩

theorem decForm_runs : FormsRun decForm decrementTarget := by
  rintro (_ | m) op i e
  · cases e; exact ⟨rfl, fun _ => rfl⟩
  · cases m <;> cases e <;> exact ⟨rfl, fun _ => rfl⟩

/-- Settles O4: the forms' own opcodes; REP and SEP have one form each. -/
theorem loadCompareAndStatusOpcodes : Obligations.LoadCompareAndStatusOpcodes := by
  refine ⟨fun src op i form => ?_, fun v => ⟨rfl, rfl⟩⟩
  rcases form with lda | cmp | cpx | cpy
  exacts [(ldaForm_runs src op i lda).1, (cmpForm_runs src op i cmp).1, (cpxForm_runs src op i cpx).1,
    (cpyForm_runs src op i cpy).1]

end Sys2Proof.Machine

/-! Loads, stores, transfers and pulls (`spec/41_load_store_transfer.md` R162 to R181, R192 to R197). -/

namespace Sys2Proof.Machine

open Sys2Proof.Claims

/-- Settles O33: each form runs as `loadX` or `loadY`, which differ from the old state in the register, `P` and the
bus. -/
theorem ldxAndLdyLoadTheOperand : Obligations.LdxAndLdyLoadTheOperand := by
  refine fun src op i s => ⟨fun form => ?_, fun form => ?_⟩
  · obtain ⟨opcode, runs⟩ := ldxForm_runs src op i form
    exact ⟨opcode, _, (runs s).trans (loadX_eq src s), negativeZero_of_flagsNZ rfl, onlyFlags_of_flagsNZ rfl, rfl⟩
  · obtain ⟨opcode, runs⟩ := ldyForm_runs src op i form
    exact ⟨opcode, _, (runs s).trans (loadY_eq src s), negativeZero_of_flagsNZ rfl, onlyFlags_of_flagsNZ rfl, rfl⟩

/-! ## Stores -/

theorem dataWrites_takeBits (s : State) (ea : Ea) (w : Width) (v : Word) :
    dataWrites s ea w (takeBits w v) = dataWrites s ea w v := by
  cases w <;> simp [dataWrites]

theorem dataStored_of_takeBits {ea : Ea} {w : Width} {v : Word} {s t : State}
    (stored : DataStored ea w (takeBits w v) s t) : DataStored ea w v s t := by
  cases w <;> simpa [DataStored] using stored

/-- A store of the low `w` bits of a value. -/
theorem storesOnly_of_operandWrite {i : Instr} {m : Mode} {w : Width} {v : Word} {s : State}
    (canonical : s.mem.wf = true) (e : exec i s = .next (operandWrite m w (takeBits w v) s)) :
    StoresOnly i m w v s := by
  refine ⟨_, e, dataStored_of_takeBits (operandWrite_stores m w _ s canonical), ?_⟩
  rw [operandWrite_eq, dataWrites_takeBits]

theorem takeBits_zero (w : Width) : takeBits w 0 = 0 := BitVec.zero_and

/-- Settles O34: each form runs as one `operandWrite`. -/
theorem storesWriteTheRegister : Obligations.StoresWriteTheRegister := by
  refine fun m op i s canonical => ⟨fun form => ?_, fun form => ?_, fun form => ?_, fun form => ?_⟩
  · obtain ⟨opcode, runs⟩ := staForm_runs m op i form
    exact ⟨opcode, storesOnly_of_operandWrite canonical (runs s)⟩
  · obtain ⟨opcode, runs⟩ := stxForm_runs m op i form
    exact ⟨opcode, storesOnly_of_operandWrite canonical (runs s)⟩
  · obtain ⟨opcode, runs⟩ := styForm_runs m op i form
    exact ⟨opcode, storesOnly_of_operandWrite canonical (runs s)⟩
  · obtain ⟨opcode, runs⟩ := stzForm_runs m op i form
    refine ⟨opcode, storesOnly_of_operandWrite canonical ?_⟩
    rw [takeBits_zero]
    exact runs s

/-! ## Transfers -/

theorem accumulatorGets_of_takeBits {w : Width} {v : Word} {s t : State} (gets : AccumulatorGets w (takeBits w v) s t) :
    AccumulatorGets w v s t := by
  cases w <;> simpa [AccumulatorGets] using gets

section
variable {i : Instr} {v : Word} {s : State}

/-- A transfer into `A` as the statement has it. -/
theorem transfersToA (e : exec i s = transferToA v s) : ∃ t, exec i s = .next t ∧ AccumulatorGets s.wA v s t ∧
    NegativeZero s.wA (takeBits s.wA v) t ∧ OnlyFlags [.N, .Z] s t ∧ t = { s with A := t.A, P := t.P } :=
  ⟨_, e.trans (transferToA_eq v s), accumulatorGets_congr rfl (accumulatorGets_of_takeBits (s.writeA_gets _ _)),
    negativeZero_of_flagsNZ rfl, onlyFlags_of_flagsNZ rfl, rfl⟩

/-- A transfer into `X`. -/
theorem transfersToX (e : exec i s = transferToX v s) : ∃ t, exec i s = .next t ∧
    NegativeZero s.wX (takeBits s.wX v) t ∧ OnlyFlags [.N, .Z] s t ∧ t = { s with X := takeBits s.wX v, P := t.P } :=
  ⟨_, e.trans (transferToX_eq v s), negativeZero_of_flagsNZ rfl, onlyFlags_of_flagsNZ rfl, rfl⟩

/-- A transfer into `Y`. -/
theorem transfersToY (e : exec i s = transferToY v s) : ∃ t, exec i s = .next t ∧
    NegativeZero s.wX (takeBits s.wX v) t ∧ OnlyFlags [.N, .Z] s t ∧ t = { s with Y := takeBits s.wX v, P := t.P } :=
  ⟨_, e.trans (transferToY_eq v s), negativeZero_of_flagsNZ rfl, onlyFlags_of_flagsNZ rfl, rfl⟩

end

/-- Settles O35: each transfer is the one of its destination. -/
theorem transfersTakeTheDestinationWidth : Obligations.TransfersTakeTheDestinationWidth := fun _ =>
  ⟨⟨rfl, transfersToX rfl⟩, ⟨rfl, transfersToX rfl⟩, ⟨rfl, transfersToX rfl⟩, ⟨rfl, transfersToY rfl⟩,
    ⟨rfl, transfersToY rfl⟩, ⟨rfl, transfersToA rfl⟩, rfl, transfersToA rfl⟩

/-- Settles O36: the 16-bit transfers are a write and `SetNZ`, or `SetS` alone. -/
theorem fullWidthTransfers : Obligations.FullWidthTransfers := fun _ =>
  ⟨⟨rfl, _, rfl, negativeZero_of_flagsNZ rfl, onlyFlags_of_flagsNZ rfl, rfl⟩,
    ⟨rfl, _, rfl, negativeZero_of_flagsNZ rfl, onlyFlags_of_flagsNZ rfl, rfl⟩,
    ⟨rfl, _, rfl, negativeZero_of_flagsNZ rfl, onlyFlags_of_flagsNZ rfl, rfl⟩, ⟨rfl, rfl⟩, rfl, rfl⟩

/-! ## Pulls -/

theorem takeBits_pulledData (w : Width) (s : State) : takeBits w (pulledData w s) = pulledData w s := by
  cases w <;> simp [pulledData]

theorem exec_pla (s : State) : exec .pla s = .next { s with
    A := (s.writeA s.wA (pulledData s.wA s)).A, P := flagsNZ s.wA (pulledData s.wA s) s.P,
    S := pullSlot s (byteCount s.wA), bus := s.bus ++ pullReads s (byteCount s.wA) } := by
  simp only [exec, execPla, pullData_eq, State.writeA_eq]
  rfl

theorem exec_plx (s : State) : exec .plx s = .next { s with
    X := pulledData s.wX s, P := flagsNZ s.wX (pulledData s.wX s) s.P,
    S := pullSlot s (byteCount s.wX), bus := s.bus ++ pullReads s (byteCount s.wX) } := by
  simp only [exec, execPlx, pullData_eq, State.writeX_eq, takeBits_pulledData]
  rfl

theorem exec_ply (s : State) : exec .ply s = .next { s with
    Y := pulledData s.wX s, P := flagsNZ s.wX (pulledData s.wX s) s.P,
    S := pullSlot s (byteCount s.wX), bus := s.bus ++ pullReads s (byteCount s.wX) } := by
  simp only [exec, execPly, pullData_eq, State.writeY_eq, takeBits_pulledData]
  rfl

theorem exec_plb (s : State) : exec .plb s = .next { s with
    DB := pulledByte s 1, P := flagsNZ .narrow (zeroExtend (pulledByte s 1)) s.P, S := pullSlot s 1,
    bus := s.bus ++ pullReads s 1 } := by
  simp only [exec, execPlb, pull8_eq]
  rfl

theorem exec_pld (s : State) : exec .pld s = .next { s with
    D := pulledWord s 1, P := flagsNZ .wide (pulledWord s 1) s.P, S := pullSlot s 2,
    bus := s.bus ++ pullReads s 2 } := by
  simp only [exec, execPld, pull16_eq]
  rfl

/-- Settles O38: the whole next state of each pull. -/
theorem pullsLoadTheRegister : Obligations.PullsLoadTheRegister := fun s =>
  ⟨⟨rfl, _, exec_pla s, accumulatorGets_congr rfl (s.writeA_gets _ _), negativeZero_of_flagsNZ rfl,
      onlyFlags_of_flagsNZ rfl, rfl⟩,
    ⟨rfl, _, exec_plx s, negativeZero_of_flagsNZ rfl, onlyFlags_of_flagsNZ rfl, rfl⟩,
    ⟨rfl, _, exec_ply s, negativeZero_of_flagsNZ rfl, onlyFlags_of_flagsNZ rfl, rfl⟩,
    ⟨rfl, _, exec_plb s, negativeZero_of_flagsNZ rfl, onlyFlags_of_flagsNZ rfl, rfl⟩,
    rfl, _, exec_pld s, negativeZero_of_flagsNZ rfl, onlyFlags_of_flagsNZ rfl, rfl⟩

/-- Settles O39: PLP is a pull and `SetP`. -/
theorem plpWritesTheStatus : Obligations.PlpWritesTheStatus := by
  refine fun s => ⟨rfl, ?_⟩
  simp only [exec, execPlp, pull8_eq, State.writeP_eq]

end Sys2Proof.Machine

/-! Words as numbers: sums, differences and steps reduced to a width (`spec/42_arithmetic_logic.md` R221 to R224,
R237). -/

namespace Sys2Proof.Machine

open Sys2Proof.Claims

/-- A word plus a signed step, reduced to `w` bits. -/
theorem takeBits_add_ofInt (w : Width) (v : Word) (d : Int) :
    takeBits w (v + BitVec.ofInt 16 d) = BitVec.ofInt 16 ((v.toNat + d) % (2 ^ widthBits w : Nat)) := by
  apply BitVec.eq_of_toNat_eq
  rw [takeBits_toNat, BitVec.toNat_add, BitVec.toNat_ofInt, BitVec.toNat_ofInt]
  cases w <;> simp only [widthBits] <;> omega

theorem signBit_takeBits (w : Width) (v : Word) : signBit w (takeBits w v) = signBit w v := by
  cases w <;> simp [signBit, takeBits, widthMask, widthBits]

/-- The sign bit of a `w`-bit value, as a number. -/
theorem signBit_eq {w : Width} {v : Word} (h : v.toNat < 2 ^ widthBits w) :
    signBit w v = decide (2 ^ (widthBits w - 1) ≤ v.toNat) := by
  rw [signBit, BitVec.getLsbD, Nat.testBit_eq_decide_div_mod_eq]
  cases w <;> simp only [widthBits] at h ⊢ <;> apply decide_eq_decide.mpr <;> omega

theorem negativeZero_iff {w : Width} {v : Word} {t : State} :
    NegativeZero w v t ↔ t.flag .Z = decide (v = 0) ∧ t.flag .N = signBit w v := by cases w <;> rfl

/-! ## The complement that SBC and the compares add -/

theorem complement_toNat {w : Width} {m : Word} (h : m.toNat < 2 ^ widthBits w) :
    (complement w m).toNat = 2 ^ widthBits w - 1 - m.toNat := by
  rw [complement, takeBits_toNat, BitVec.toNat_not]
  cases w <;> simp only [widthBits] at h ⊢ <;> omega

/-- Adding the complement and the carry is subtracting operand and borrow, and `2^w`. -/
theorem addSum_complement {w : Width} {a m : Word} {c : Bool} (h : m.toNat < 2 ^ widthBits w) :
    (addSum a (complement w m) c : Int) = a.toNat - m.toNat - (if c then 0 else 1) + (2 ^ widthBits w : Nat) := by
  rw [addSum, complement_toNat h]
  cases w <;> cases c <;> simp only [widthBits, bitNat, if_true, Bool.false_eq_true, if_false] at h ⊢ <;> omega

/-- The result of a subtraction with borrow. -/
theorem addResult_complement {w : Width} {a m : Word} (c : Bool) (h : m.toNat < 2 ^ widthBits w) :
    addResult w a (complement w m) c =
      BitVec.ofInt 16 ((a.toNat - m.toNat - (if c then 0 else 1)) % (2 ^ widthBits w : Nat)) := by
  have sum := addSum_complement (a := a) (c := c) h
  apply BitVec.eq_of_toNat_eq
  rw [addResult, reduce_toNat, BitVec.toNat_ofInt]
  generalize addSum a (complement w m) c = n at sum
  generalize (a.toNat - m.toNat - (if c then 0 else 1) : Int) = difference at sum
  cases w <;> simp only [widthBits] at sum ⊢ <;> omega

/-- The carry of a subtraction says that no borrow occurred. -/
theorem addCarry_complement {w : Width} {a m : Word} (c : Bool) (h : m.toNat < 2 ^ widthBits w) :
    addCarry w a (complement w m) c = decide ((m.toNat : Int) + (if c then 0 else 1) ≤ a.toNat) := by
  have sum := addSum_complement (a := a) (c := c) h
  have mask : (widthMask w).toNat = 2 ^ widthBits w - 1 := by cases w <;> rfl
  have := Nat.two_pow_pos (widthBits w)
  rw [addCarry, mask]
  apply decide_eq_decide.mpr
  omega

/-- The operand of a compare subtracted without borrow. -/
theorem addResult_complement_true {w : Width} {a m : Word} (h : m.toNat < 2 ^ widthBits w) :
    addResult w a (complement w m) true = takeBits w (a - m) := by
  have sum := addSum_complement (a := a) (c := true) h
  apply BitVec.eq_of_toNat_eq
  rw [addResult, reduce_toNat, takeBits_toNat, BitVec.toNat_sub]
  generalize addSum a (complement w m) true = n at sum
  cases w <;> simp only [widthBits, if_true] at h sum ⊢ <;> omega

/-! ## Overflow -/

theorem and_widthSign_eq_zero (w : Width) (v : Word) : v &&& widthSign w = 0 ↔ signBit w v = false := by
  have sign : widthSign w = BitVec.twoPow 16 (widthBits w - 1) := by cases w <;> rfl
  have nonzero : widthSign w ≠ 0 := by cases w <;> decide
  rw [sign] at nonzero ⊢
  rw [BitVec.and_twoPow, signBit]
  split <;> simp_all

theorem xor_and_widthSign_eq_zero (w : Width) (v u : Word) :
    (v ^^^ u) &&& widthSign w = 0 ↔ signBit w v = signBit w u := by
  rw [and_widthSign_eq_zero, signBit, BitVec.getLsbD_xor, bne_eq_false_iff_eq]
  rfl

/-- Overflow: the operands' signs agree, the result's differs (R221). -/
theorem addOverflow_eq (w : Width) (a m : Word) (c : Bool) :
    addOverflow w a m c = decide (signBit w a = signBit w m ∧ signBit w a ≠ signBit w (addResult w a m c)) := by
  rw [addOverflow, Bool.eq_iff_iff, Bool.and_eq_true, beq_iff_eq, bne_iff_ne, ne_eq, decide_eq_true_iff,
    xor_and_widthSign_eq_zero, xor_and_widthSign_eq_zero]

/-- The number that a `w`-bit value is in two's complement. -/
def signedValue (w : Width) (v : Word) : Int := if signBit w v then v.toNat - (2 ^ widthBits w : Nat) else v.toNat

/-- A value is negative from half its range on. -/
theorem signedValue_cases {w : Width} {v : Word} (h : v.toNat < 2 ^ widthBits w) :
    (2 ^ (widthBits w - 1) ≤ v.toNat ∧ signedValue w v = v.toNat - (2 ^ widthBits w : Nat)) ∨
    (v.toNat < 2 ^ (widthBits w - 1) ∧ signedValue w v = v.toNat) := by
  rw [signedValue, signBit_eq h]
  by_cases negative : 2 ^ (widthBits w - 1) ≤ v.toNat
  · exact .inl ⟨negative, if_pos (decide_eq_true negative)⟩
  · exact .inr ⟨not_le.mp negative, if_neg (by simpa using negative)⟩

theorem toInt_cases {n : Nat} (v : BitVec n) :
    (2 ^ n ≤ 2 * v.toNat ∧ v.toInt = v.toNat - (2 ^ n : Nat)) ∨ (2 * v.toNat < 2 ^ n ∧ v.toInt = v.toNat) := by
  rw [BitVec.toInt_eq_toNat_cond]
  split
  next h => exact .inr ⟨h, rfl⟩
  next h => exact .inl ⟨not_lt.mp h, rfl⟩

theorem signedValue_takeBits_narrow (v : Word) : signedValue .narrow (takeBits .narrow v) = (lowByte v).toInt := by
  have value := signedValue_cases (takeBits_lt .narrow v)
  have int := toInt_cases (lowByte v)
  rw [lowByte_toNat] at int
  rw [takeBits_toNat] at value
  simp only [widthBits] at value
  omega

theorem signedValue_wide (v : Word) : signedValue .wide v = v.toInt := by
  have value := signedValue_cases (w := .wide) v.isLt
  have int := toInt_cases v
  simp only [widthBits] at value
  omega

/-- V is set exactly when the signed sum is no signed `w`-bit number. -/
theorem addOverflow_iff {w : Width} {a m : Word} (c : Bool) (ha : a.toNat < 2 ^ widthBits w)
    (hm : m.toNat < 2 ^ widthBits w) :
    let sum := signedValue w a + signedValue w m + (if c then 1 else 0)
    addOverflow w a m c = true ↔ sum < -(2 ^ (widthBits w - 1) : Nat) ∨ (2 ^ (widthBits w - 1) : Nat) ≤ sum := by
  have hr : (addResult w a m c).toNat = addSum a m c % 2 ^ widthBits w := reduce_toNat w _
  have lt := Nat.mod_lt (addSum a m c) (Nat.two_pow_pos (widthBits w))
  rw [← hr] at lt
  have sum : addSum a m c = a.toNat + m.toNat + bitNat c := rfl
  have carry : ((if c then 1 else 0 : Int) = bitNat c) ∧ bitNat c ≤ 1 := by cases c <;> decide
  have valueA := signedValue_cases ha
  have valueM := signedValue_cases hm
  simp only [addOverflow_eq, signBit_eq lt, hr, signBit_eq ha, signBit_eq hm, decide_eq_true_eq, decide_eq_decide,
    ne_eq, carry.1]
  generalize signedValue w a = x at valueA ⊢
  generalize signedValue w m = y at valueM ⊢
  cases w <;> simp only [widthBits] at ha hm valueA valueM ⊢ <;> omega

end Sys2Proof.Machine

/-! Arithmetic, compares, logic and bit tests (`spec/42_arithmetic_logic.md` R221 to R230). -/

namespace Sys2Proof.Machine

open Sys2Proof.Claims

/-! ## ADC and SBC -/

section
variable {s t : State} {d b : Bool} {w : Width} {a m : Word} {c : Bool}

theorem negativeZero_of_sumFlags (hP : t.P = sumFlags d b w a m c s.P) : NegativeZero w (sumResult d b w a m c) t := by
  rw [negativeZero_iff, State.flag, State.flag, hP, getFlag_sumFlags, getFlag_sumFlags]
  exact ⟨rfl, rfl⟩

theorem onlyFlags_of_sumFlags (hP : t.P = sumFlags d b w a m c s.P) : OnlyFlags [.N, .V, .Z, .C] s t := by
  intro f other
  obtain ⟨notN, notV, notZ, notC⟩ : f ≠ .N ∧ f ≠ .V ∧ f ≠ .Z ∧ f ≠ .C := by simpa using other
  rw [State.flag, hP, getFlag_sumFlags, if_neg notN, if_neg notZ, if_neg notV, if_neg notC, State.flag]

theorem carry_of_sumFlags (hP : t.P = sumFlags d b w a m c s.P) : t.flag .C = sumCarry d b w a m c := by
  rw [State.flag, hP, getFlag_sumFlags]
  rfl

theorem overflow_of_sumFlags (hP : t.P = sumFlags d b w a m c s.P) : t.flag .V = sumOverflow d b w a m c := by
  rw [State.flag, hP, getFlag_sumFlags]
  rfl

end

/-- V as R221 states it, with the sign bit of the width. -/
theorem overflow_iff_signs (w : Width) (a m r : Word) :
    (signBit w a = signBit w m ∧ signBit w a ≠ signBit w r) ↔
      (a ^^^ m) &&& (match w with | .narrow => 0x0080 | .wide => 0x8000) = 0 ∧
        (a ^^^ r) &&& (match w with | .narrow => 0x0080 | .wide => 0x8000) ≠ 0 := by
  have sign : (match w with | .narrow => 0x0080 | .wide => 0x8000 : Word) = widthSign w := by cases w <;> rfl
  rw [sign, ne_eq, ne_eq, xor_and_widthSign_eq_zero, xor_and_widthSign_eq_zero]

/-- Settles O41: each form runs as `addWithCarry`; in binary no free value enters it. -/
theorem adcAddsWithCarry : Obligations.AdcAddsWithCarry := by
  intro src op i s form
  obtain ⟨opcode, runs⟩ := adcForm_runs src op i form
  refine ⟨opcode, _, _, (runs s).trans (addWithCarry_eq src s), accumulatorGets_congr rfl (s.writeA_gets _ _),
    takeBits_sumResult _ _ _ _ _ _, negativeZero_of_sumFlags rfl, onlyFlags_of_sumFlags rfl, rfl, fun binary => ?_⟩
  rw [State.decimal_eq_false binary]
  refine ⟨?_, (carry_of_sumFlags (s := s) rfl).trans ?_, (overflow_of_sumFlags (s := s) rfl).trans ?_⟩
  · cases s.wA <;> rfl
  · cases s.wA <;> rfl
  · exact (addOverflow_eq _ _ _ _).trans (decide_eq_decide.mpr (overflow_iff_signs _ _ _ _))

/-- The signed number of the statement is that of the width. -/
theorem signedValue_takeBits (w : Width) (v : Word) :
    signedValue w (takeBits w v) = match w with
      | .narrow => (lowByte v).toInt
      | .wide => v.toInt := by
  cases w
  · exact signedValue_takeBits_narrow v
  · rw [takeBits_wide]; exact signedValue_wide v

/-- Settles O42: the overflow of two values of the width is that of the signed sum. -/
theorem adcOverflowIsSigned : Obligations.AdcOverflowIsSigned := by
  intro src op i s t form binary e
  rw [(adcForm_runs src op i form).2 s, addWithCarry_eq, State.decimal_eq_false binary] at e
  have flag := overflow_of_sumFlags (s := s) (t := t) (congrArg State.P (Host.Outcome.next.inj e)).symm
  have signed := addOverflow_iff (s.flag .C) (takeBits_lt s.wA s.A) (operandRead_lt src s.wA s)
  rw [flag, sumOverflow_binary, addend_add]
  refine signed.trans ?_
  rw [← takeBits_operandRead, signedValue_takeBits, signedValue_takeBits, takeBits_operandRead]
  cases s.wA <;> rfl

theorem signBit_complement (w : Width) (m : Word) : signBit w (complement w m) = signBit w (~~~m) :=
  signBit_takeBits w _

/-- Settles O43: each form runs as `subtractWithBorrow`, which adds the complement of the operand. -/
theorem sbcSubtractsWithBorrow : Obligations.SbcSubtractsWithBorrow := by
  intro src op i s form
  obtain ⟨opcode, runs⟩ := sbcForm_runs src op i form
  refine ⟨opcode, _, _, (runs s).trans (subtractWithBorrow_eq src s), accumulatorGets_congr rfl (s.writeA_gets _ _),
    takeBits_sumResult _ _ _ _ _ _, negativeZero_of_sumFlags rfl, onlyFlags_of_sumFlags rfl, rfl, fun binary => ?_⟩
  rw [State.decimal_eq_false binary]
  refine ⟨?_, (carry_of_sumFlags (s := s) rfl).trans ?_, (overflow_of_sumFlags (s := s) rfl).trans ?_⟩
  · rw [sumResult_binary, addend_subtract, addResult_complement _ (operandRead_lt src s.wA s)]
    cases s.wA <;> rfl
  · exact addCarry_complement _ (operandRead_lt src s.wA s)
  · refine (addOverflow_eq _ _ _ _).trans (decide_eq_decide.mpr ?_)
    rw [addend_subtract, signBit_complement]
    exact overflow_iff_signs _ _ _ _

/-! ## Compares -/

/-- A compare as the statement has it: the complement of the operand is added with a carry. -/
theorem compares_of_flags {i : Instr} {src : Source} {w : Width} {a : Word} {s : State}
    (e : exec i s = .next { s with
      P := compareFlags w a (operandRead src w s).1 s.P, bus := (operandRead src w s).2.bus }) :
    Compares i src w a s := by
  have lt := operandRead_lt src w s
  refine ⟨_, e, ?_, ?_, fun f other => ?_, rfl⟩
  · rw [State.flag, getFlag_compareFlags]
    refine (addCarry_complement true lt).trans (decide_eq_decide.mpr ?_)
    simp
  · rw [negativeZero_iff, State.flag, State.flag, getFlag_compareFlags, getFlag_compareFlags,
      addResult_complement_true lt]
    exact ⟨rfl, rfl⟩
  · obtain ⟨notN, notZ, notC⟩ : f ≠ .N ∧ f ≠ .Z ∧ f ≠ .C := by simpa using other
    rw [State.flag, getFlag_compareFlags, if_neg notN, if_neg notZ, if_neg notC, State.flag]

/-- Settles O44: each form runs as the compare of its register. -/
theorem comparesSetCarryZeroNegative : Obligations.ComparesSetCarryZeroNegative := by
  refine fun src op i s => ⟨fun form => ?_, fun form => ?_, fun form => ?_⟩
  · exact compares_of_flags (((cmpForm_runs src op i form).2 s).trans (compareA_eq src s))
  · exact compares_of_flags (((cpxForm_runs src op i form).2 s).trans (compareX_eq src s))
  · exact compares_of_flags (((cpyForm_runs src op i form).2 s).trans (compareY_eq src s))

/-! ## Logic and bit tests -/

/-- An operation of the accumulator and an operand bit by bit. -/
theorem combinesA {i : Instr} {f : Word → Word → Word} {src : Source} {s : State} (e : exec i s = logicalA f src s) :
    let r := f (takeBits s.wA s.A) (operandRead src s.wA s).1
    ∃ t, exec i s = .next t ∧ AccumulatorGets s.wA r s t ∧ NegativeZero s.wA r t ∧ OnlyFlags [.N, .Z] s t ∧
      t = { s with A := t.A, P := t.P, bus := (operandRead src s.wA s).2.bus } :=
  ⟨_, e.trans (logicalA_eq f src s), accumulatorGets_congr rfl (s.writeA_gets _ _), negativeZero_of_flagsNZ rfl,
    onlyFlags_of_flagsNZ rfl, rfl⟩

/-- Settles O45: each form runs as `logicalA` with its operation. -/
theorem logicCombinesTheAccumulator : Obligations.LogicCombinesTheAccumulator := by
  refine fun src op i s => ⟨fun form => ?_, fun form => ?_, fun form => ?_⟩
  · obtain ⟨opcode, runs⟩ := andForm_runs src op i form
    exact ⟨opcode, combinesA (runs s)⟩
  · obtain ⟨opcode, runs⟩ := oraForm_runs src op i form
    exact ⟨opcode, combinesA (runs s)⟩
  · obtain ⟨opcode, runs⟩ := eorForm_runs src op i form
    exact ⟨opcode, combinesA (runs s)⟩

section
variable {s t : State} {copy : Bool} {w : Width} {a m : Word}

theorem zero_of_bitFlags (hP : t.P = bitFlags copy w a m s.P) : t.flag .Z = decide (a &&& m = 0) := by
  rw [State.flag, hP]
  cases copy <;> simp

theorem onlyFlags_of_bitFlags (hP : t.P = bitFlags copy w a m s.P) : OnlyFlags [.Z, .N, .V] s t := by
  intro f other
  obtain ⟨notZ, notN, notV⟩ : f ≠ .Z ∧ f ≠ .N ∧ f ≠ .V := by simpa using other
  rw [State.flag, hP, State.flag]
  cases copy <;> simp [notZ, notN, notV]

theorem kept_of_bitFlags (hP : t.P = bitFlags copy w a m s.P) (keeps : copy = false) :
    t.flag .N = s.flag .N ∧ t.flag .V = s.flag .V := by
  subst keeps
  simp [State.flag, hP]

theorem copied_of_bitFlags (hP : t.P = bitFlags copy w a m s.P) (copies : copy = true) :
    t.flag .N = signBit w m ∧ t.flag .V = m.getLsbD (widthBits w - 2) := by
  subst copies
  simp [State.flag, hP]

end

/-- Settles O46: each form runs as `bitTest`, and whether it copies N and V is a matter of the form. -/
theorem bitTestsWithoutTouchingA : Obligations.BitTestsWithoutTouchingA := by
  intro src op i s form
  obtain ⟨opcode, runs⟩ := bitForm_runs src op i form
  obtain ⟨t, answer, hP, same⟩ : ∃ t, exec i s = .next t ∧
      t.P = bitFlags (bitCopies src s) s.wA (takeBits s.wA s.A) (operandRead src s.wA s).1 s.P ∧
      t = { s with P := t.P, bus := (operandRead src s.wA s).2.bus } :=
    ⟨_, (runs s).trans (bitTest_eq _ src s), rfl, rfl⟩
  refine ⟨opcode, t, answer, zero_of_bitFlags hP, onlyFlags_of_bitFlags hP, same, kept_of_bitFlags hP, fun copies => ?_⟩
  obtain ⟨N, V⟩ := copied_of_bitFlags hP copies
  rw [N, V]
  cases s.wA <;> exact ⟨rfl, rfl⟩

end Sys2Proof.Machine

/-! Operations that write their operand back: TSB, TRB, shifts, rotates, INC and DEC (`spec/42_arithmetic_logic.md` R231
to R242, `spec/20_memory.md` R78), and the block moves (`spec/41_load_store_transfer.md` R210 to R212). -/

namespace Sys2Proof.Machine

open Sys2Proof.Claims

theorem dataAt_lt (s : State) (ea : Ea) (w : Width) : (dataAt s ea w).toNat < 2 ^ widthBits w := by
  rw [← takeBits_dataAt]
  exact takeBits_lt _ _

/-- What `modify` does is what the statements say of it, if result and flags are those of the statement on every `w`-bit
value. -/
theorem modifies_of_modify {i : Instr} {target : Target} {w : Width} {r result : Word → Word} {fs : List Flag}
    {flags : Word → State → Prop} {p : Word → Byte → Byte} {s : State} (canonical : s.mem.wf = true)
    (e : exec i s = .next (modify target w result p s)) (only : ∀ v f, f ∉ fs → getFlag f (p v s.P) = s.flag f)
    (agrees : ∀ v, v.toNat < 2 ^ widthBits w → result v = r v ∧ ∀ t : State, t.P = p v s.P → flags v t) :
    Modifies i target w r fs flags s := by
  cases target with
  | acc =>
    obtain ⟨same, holds⟩ := agrees (takeBits w s.A) (takeBits_lt w s.A)
    rw [modify_acc, State.writeA_eq, same] at e
    exact ⟨_, e, only _, accumulatorGets_congr (by rw [State.writeA_eq]) (s.writeA_gets w _), holds _ rfl, rfl⟩
  | mem m =>
    obtain ⟨same, holds⟩ := agrees (dataAt s (effectiveAddress m s).1 w) (dataAt_lt s _ w)
    rw [modify_mem, same] at e
    exact ⟨_, e, only _, writeData_stores _ w _ s canonical, holds _ rfl, rfl⟩

/-! ## TSB and TRB -/

theorem getFlag_testFlags_other {a v : Word} {p : Byte} {f : Flag} (other : f ∉ [Flag.Z]) :
    getFlag f (testFlags a v p) = getFlag f p := by
  rw [getFlag_testFlags, if_neg (by simpa using other)]

theorem zero_of_testFlags {a v : Word} {s t : State} (hP : t.P = testFlags a v s.P) :
    t.flag .Z = decide (a &&& v = 0) := by
  rw [State.flag, hP, getFlag_testFlags, if_pos rfl]

/-- A `w`-bit value is cut by the complement at width `w` as by the whole complement. -/
theorem and_complement {w : Width} {v : Word} (a : Word) (h : v.toNat < 2 ^ widthBits w) :
    v &&& complement w a = v &&& ~~~a := by
  have cut : v &&& widthMask w = v := takeBits_eq_self h
  rw [complement, takeBits, BitVec.and_comm (~~~a), ← BitVec.and_assoc, cut]

/-- Settles O47: each form runs as a `modify` of its one address. -/
theorem testAndSetOrResetBits : Obligations.TestAndSetOrResetBits := by
  refine fun m op i s canonical => ⟨fun form => ?_, fun form => ?_⟩
  · obtain ⟨opcode, runs⟩ := tsbForm_runs m op i form
    exact ⟨opcode, modifies_of_modify canonical (runs s) (fun _ _ => getFlag_testFlags_other)
      fun v _ => ⟨rfl, fun _ => zero_of_testFlags⟩⟩
  · obtain ⟨opcode, runs⟩ := trbForm_runs m op i form
    exact ⟨opcode, modifies_of_modify canonical (runs s) (fun _ _ => getFlag_testFlags_other)
      fun v h => ⟨and_complement _ h, fun _ => zero_of_testFlags⟩⟩

/-! ## Shifts and rotates -/

section
variable {w : Width} {v : Word} {c : Bool}

theorem shiftLeft_toNat (w : Width) (v : Word) : (shiftLeft w v).toNat = v.toNat * 2 % 2 ^ widthBits w := by
  rw [shiftLeft, takeBits_toNat, BitVec.toNat_shiftLeft, Nat.shiftLeft_eq]
  cases w <;> simp only [widthBits] <;> omega

theorem rotateLeft_toNat (w : Width) (c : Bool) (v : Word) :
    (rotateLeft w c v).toNat = (v.toNat * 2 + bitNat c) % 2 ^ widthBits w := by
  have disjoint : v <<< 1 &&& BitVec.ofNat 16 (bitNat c) = 0 := by
    refine BitVec.eq_of_getLsbD_eq fun k hk => ?_
    cases c <;> cases k <;> simp [bitNat]
  rw [rotateLeft, ← BitVec.add_eq_or_of_and_eq_zero _ _ disjoint, takeBits_toNat, BitVec.toNat_add,
    BitVec.toNat_shiftLeft, Nat.shiftLeft_eq, BitVec.toNat_ofNat]
  cases w <;> simp only [widthBits] <;> omega

theorem rotateRight_toNat (c : Bool) (h : v.toNat < 2 ^ widthBits w) :
    (rotateRight w c v).toNat = v.toNat / 2 + bitNat c * 2 ^ (widthBits w - 1) := by
  have half : v.toNat / 2 < 2 ^ (widthBits w - 1) := by cases w <;> simp only [widthBits] at h ⊢ <;> omega
  have top : (BitVec.ofNat 16 (bitNat c) <<< (widthBits w - 1)).toNat = bitNat c <<< (widthBits w - 1) := by
    cases w <;> cases c <;> rfl
  rw [rotateRight, BitVec.toNat_or, top, BitVec.toNat_ushiftRight, Nat.or_comm, Nat.shiftRight_eq_div_pow, pow_one,
    ← Nat.shiftLeft_add_eq_or_of_lt half, Nat.shiftLeft_eq, Nat.add_comm]

theorem shiftRight_toNat (v : Word) : (shiftRight v).toNat = v.toNat / 2 := by
  rw [shiftRight, BitVec.toNat_ushiftRight, Nat.shiftRight_eq_div_pow, pow_one]

theorem lowBit_eq (v : Word) : v.getLsbD 0 = decide (v.toNat % 2 = 1) := Nat.testBit_zero v.toNat

end

theorem getFlag_shiftFlags_other {w : Width} {c : Bool} {r : Word} {p : Byte} {f : Flag}
    (other : f ∉ [Flag.N, .Z, .C]) :
    getFlag f (shiftFlags w c r p) = getFlag f p := by
  obtain ⟨notN, notZ, notC⟩ : f ≠ .N ∧ f ≠ .Z ∧ f ≠ .C := by simpa using other
  rw [getFlag_shiftFlags, if_neg notN, if_neg notZ, if_neg notC]

theorem flags_of_shiftFlags {w : Width} {c : Bool} {r : Word} {s t : State} (hP : t.P = shiftFlags w c r s.P) :
    t.flag .C = c ∧ NegativeZero w r t := by
  rw [negativeZero_iff, State.flag, State.flag, State.flag, hP]
  simp

/-- An operation through `shiftFlags` does what the statement says, if result and bit shifted off are the
statement's. -/
theorem modifies_of_shift {i : Instr} {target : Target} {w : Width} {shift r : Word → Word} {carry out : Word → Bool}
    {s : State} (canonical : s.mem.wf = true)
    (e : exec i s = .next (modify target w shift (fun v => shiftFlags w (carry v) (shift v)) s))
    (agrees : ∀ v, v.toNat < 2 ^ widthBits w → shift v = r v ∧ carry v = out v) :
    Modifies i target w r [.N, .Z, .C] (fun v t => t.flag .C = out v ∧ NegativeZero w (r v) t) s := by
  refine modifies_of_modify canonical e (fun _ _ => getFlag_shiftFlags_other) fun v h => ?_
  obtain ⟨result, bit⟩ := agrees v h
  exact ⟨result, fun t hP => by rw [← bit, ← result]; exact flags_of_shiftFlags hP⟩

/-- The statement's number of a carry is `bitNat`. -/
theorem bitNat_eq (c : Bool) : bitNat c = if c then 1 else 0 := by cases c <;> rfl

/-- Settles O48: the shifted words and the bits shifted off, as numbers. -/
theorem shiftsMoveOneBit : Obligations.ShiftsMoveOneBit := by
  intro target op i s canonical w size c left right leaves top bottom does
  have sizeEq : size = 2 ^ widthBits w := by simp only [size, w]; cases s.wA <;> rfl
  have halfEq : size / 2 = 2 ^ (widthBits w - 1) := by simp only [size, w]; cases s.wA <;> rfl
  have topEq : ∀ v : Word, v.toNat < 2 ^ widthBits w → signBit w v = top v := fun v h => by
    rw [signBit_eq h]
    simp only [top, halfEq]
  have left_eq : ∀ (v r : Word) (n : Nat), r.toNat = (v.toNat * 2 + n) % 2 ^ widthBits w → r = left v n :=
    fun v r n h => by simp only [left, sizeEq, ← h, BitVec.ofNat_toNat, BitVec.setWidth_eq]
  have right_eq : ∀ (v r : Word) (n : Nat), r.toNat = v.toNat / 2 + n * 2 ^ (widthBits w - 1) → r = right v n :=
    fun v r n h => by simp only [right, halfEq, ← h, BitVec.ofNat_toNat, BitVec.setWidth_eq]
  refine ⟨fun form => ?_, fun form => ?_, fun form => ?_, fun form => ?_⟩
  · obtain ⟨opcode, runs⟩ := aslForm_runs target op i form
    exact ⟨opcode, modifies_of_shift canonical (runs s) fun v h => ⟨left_eq _ _ _ (shiftLeft_toNat w v), topEq v h⟩⟩
  · obtain ⟨opcode, runs⟩ := lsrForm_runs target op i form
    exact ⟨opcode, modifies_of_shift canonical (runs s) fun v _ =>
      ⟨right_eq _ _ _ (by rw [shiftRight_toNat, Nat.zero_mul, Nat.add_zero]), lowBit_eq v⟩⟩
  · obtain ⟨opcode, runs⟩ := rolForm_runs target op i form
    exact ⟨opcode, modifies_of_shift canonical (runs s) fun v h =>
      ⟨left_eq _ _ _ (by rw [rotateLeft_toNat, bitNat_eq]), topEq v h⟩⟩
  · obtain ⟨opcode, runs⟩ := rorForm_runs target op i form
    exact ⟨opcode, modifies_of_shift canonical (runs s) fun v h =>
      ⟨right_eq _ _ _ (by rw [rotateRight_toNat _ h, bitNat_eq]), lowBit_eq v⟩⟩

/-! ## INC, DEC and the index steps -/

theorem increment_eq (w : Width) (v : Word) :
    increment w v = BitVec.ofInt 16 ((v.toNat + 1) % (2 ^ widthBits w : Nat)) := by
  rw [increment, ← takeBits_add_ofInt]
  rfl

theorem decrement_eq (w : Width) (v : Word) :
    decrement w v = BitVec.ofInt 16 ((v.toNat + (-1)) % (2 ^ widthBits w : Nat)) := by
  rw [decrement, BitVec.sub_eq_add_neg, ← takeBits_add_ofInt]
  rfl

theorem getFlag_flagsNZ_other {w : Width} {v : Word} {p : Byte} {f : Flag} (other : f ∉ [Flag.N, .Z]) :
    getFlag f (flagsNZ w v p) = getFlag f p := by
  obtain ⟨notN, notZ⟩ : f ≠ .N ∧ f ≠ .Z := by simpa using other
  rw [getFlag_flagsNZ, if_neg notN, if_neg notZ]

/-- An operation that leaves N and Z of its result. -/
theorem modifies_of_flagsNZ {i : Instr} {target : Target} {w : Width} {move r : Word → Word} {s : State}
    (canonical : s.mem.wf = true) (e : exec i s = .next (modify target w move (fun v => flagsNZ w (move v)) s))
    (agrees : ∀ v, move v = r v) : Modifies i target w r [.N, .Z] (fun v t => NegativeZero w (r v) t) s :=
  modifies_of_modify canonical e (fun _ _ => getFlag_flagsNZ_other) fun v _ =>
    ⟨agrees v, fun t hP => by rw [← agrees v]; exact negativeZero_of_flagsNZ hP⟩

/-- Settles O49: each form runs as a `modify` with the step at the width. -/
theorem incAndDecWrap : Obligations.IncAndDecWrap := by
  intro target op i s canonical size moved does
  have sizeEq : size = (2 ^ widthBits s.wA : Nat) := by simp only [size]; cases s.wA <;> rfl
  refine ⟨fun form => ?_, fun form => ?_⟩
  · obtain ⟨opcode, runs⟩ := incForm_runs target op i form
    exact ⟨opcode, modifies_of_flagsNZ canonical (runs s) fun v => by simp only [moved, sizeEq, increment_eq]⟩
  · obtain ⟨opcode, runs⟩ := decForm_runs target op i form
    exact ⟨opcode, modifies_of_flagsNZ canonical (runs s) fun v => by simp only [moved, sizeEq, decrement_eq]⟩

/-- The number of values of an index register. -/
theorem indexSize_eq (s : State) : (if s.flag .X then 256 else 65536 : Int) = (2 ^ widthBits s.wX : Nat) := by
  rw [State.wX]
  cases s.flag .X <;> rfl

/-- Settles O50: a step of an index register is cut to its width, and the write cuts it no further. -/
theorem indexRegistersStep : Obligations.IndexRegistersStep := by
  intro s
  simp only [indexSize_eq, ← increment_eq, ← decrement_eq, exec, execInx, execDex, execIny, execDey, State.writeX_eq,
    State.writeY_eq, State.setNZ_eq, increment, decrement, takeBits_takeBits]
  exact ⟨⟨rfl, _, rfl, negativeZero_of_flagsNZ rfl, onlyFlags_of_flagsNZ rfl, rfl⟩,
    ⟨rfl, _, rfl, negativeZero_of_flagsNZ rfl, onlyFlags_of_flagsNZ rfl, rfl⟩,
    ⟨rfl, _, rfl, negativeZero_of_flagsNZ rfl, onlyFlags_of_flagsNZ rfl, rfl⟩,
    rfl, _, rfl, negativeZero_of_flagsNZ rfl, onlyFlags_of_flagsNZ rfl, rfl⟩

/-! ## Block moves -/

/-- One step of a block move by a signed `delta`, as the statement gives it. -/
theorem blockMove_moves {i : Instr} {delta : Int} {dst src : Byte} {s : State} (canonical : s.mem.wf = true)
    (e : exec i s = blockMove (BitVec.ofInt 16 delta) dst src s) :
    ∃ t, exec i s = .next t ∧
      t.mem.read (dst.toNat * 65536 + s.Y.toNat) = byteIn s src s.X ∧
      (∀ k, k ≠ dst.toNat * 65536 + s.Y.toNat → t.mem.read k = s.mem.read k) ∧
      t = { s with
            mem := t.mem,
            X := BitVec.ofInt 16 ((s.X.toNat + delta) % (2 ^ widthBits s.wX : Nat)),
            Y := BitVec.ofInt 16 ((s.Y.toNat + delta) % (2 ^ widthBits s.wX : Nat)),
            A := s.A - 1, DB := dst, PC := if s.A = 1 then s.PC else s.PC - 3,
            out := .step (if s.A = 1 then s.params.cycMoveDone else s.params.cycMoveContinue) .ok,
            bus := s.bus ++ [.read8 src s.X (byteIn s src s.X), .write8 dst s.Y (byteIn s src s.X)] } := by
  have last : s.A - 1 ≠ 0 ↔ ¬ s.A = 1 := not_congr (by rw [sub_eq_zero])
  refine ⟨_, e.trans (blockMove_eq _ dst src s), Memory.read_write canonical _ _,
    fun k other => Memory.read_write_other _ _ other, ?_⟩
  simp only [takeBits_add_ofInt, last, ite_not]

/-- Settles O40: MVN and MVP are the block move by 1 and by -1. -/
theorem blockMoveMovesOneByte : Obligations.BlockMoveMovesOneByte := by
  intro dst src s canonical
  simp only [indexSize_eq]
  exact ⟨⟨rfl, blockMove_moves canonical rfl⟩, rfl, blockMove_moves canonical rfl⟩

end Sys2Proof.Machine

/-! Addresses and operands (`spec/20_memory.md` R61 to R63, `spec/40_addressing_modes.md` R123 to R138), and the
branches and jumps that use them (`spec/43_control_transfer.md` R271 to R283). -/

namespace Sys2Proof.Machine

open Sys2Proof.Claims

/-! ## Cells and successors -/

/-- The word of a bank and an offset, as the number of the flat address. -/
theorem bank_append_offset (bank : Byte) (off : Word) :
    bank ++ off = BitVec.ofNat 24 (bank.toNat * 65536 + off.toNat) := by
  apply BitVec.eq_of_toNat_eq
  have := bank.isLt
  have := off.isLt
  rw [BitVec.toNat_append, ← Nat.shiftLeft_add_eq_or_of_lt off.isLt, Nat.shiftLeft_eq, BitVec.toNat_ofNat]
  omega

/-- A flat address names the cell of its bank and offset (R63). -/
theorem flat_cell_eq_pair_cell (a : Addr) : (Ea.flat a).cell = (Ea.pair (bankOf a) (offsetOf a)).cell := by
  rw [Ea.cell, Ea.cell, bankOf_toNat, offsetOf_toNat]
  omega

theorem flat_succ_carry (a : Addr) : (Ea.flat a).succ true = .flat (BitVec.ofNat 24 (a.toNat + 1)) := by
  rw [BitVec.ofNat_add, BitVec.ofNat_toNat, BitVec.setWidth_eq]
  rfl

theorem flat_succ_wrap (a : Addr) :
    (Ea.flat a).succ false = .flat (BitVec.ofNat 24 (a.toNat / 65536 * 65536 + (a.toNat + 1) % 65536)) := by
  have offset : (offsetOf a + 1).toNat = (a.toNat + 1) % 65536 := by
    rw [BitVec.toNat_add, offsetOf_toNat]
    exact Nat.mod_add_mod _ _ _
  rw [← offset, ← bankOf_toNat, ← bank_append_offset]
  rfl

theorem pair_succ (bank : Byte) (off : Word) (carry : Bool) :
    (Ea.pair bank off).succ carry = .pair bank (BitVec.ofNat 16 (off.toNat + 1)) :=
  congrArg (Ea.pair bank) (add_eq_ofNat off 1)

/-- Settles O28: cells and successors as numbers. -/
theorem pairAndFlatAddresses : Obligations.PairAndFlatAddresses :=
  ⟨fun bank off => ⟨rfl, pair_succ bank off⟩, fun a => ⟨rfl, flat_succ_carry a, flat_succ_wrap a⟩,
    flat_cell_eq_pair_cell,
    fun _ _ _ => ⟨rfl, rfl⟩, fun _ _ => ⟨rfl, rfl⟩⟩

/-! ## Effective addresses -/

theorem stackRelative_eq (d : Byte) (s : State) :
    stackRelative d s = .pair 0x00 (BitVec.ofNat 16 (s.S.toNat + d.toNat)) :=
  congrArg (Ea.pair 0x00) (add_zeroExtend_eq_ofNat s.S d)

theorem directPageIndexed_eq (d : Byte) (i : Word) (s : State) :
    directPageIndexed d i s = .pair 0x00 (BitVec.ofNat 16 (s.D.toNat + d.toNat + i.toNat)) := by
  rw [directPageIndexed, add_zeroExtend_eq_ofNat, BitVec.ofNat_add _ i.toNat, BitVec.ofNat_toNat, BitVec.setWidth_eq]

/-- Settles O29: the sums of addresses, as numbers. -/
theorem directEffectiveAddresses : Obligations.DirectEffectiveAddresses := by
  intro s d a l
  simp only [effectiveAddress, directPage_eq, directPageIndexed_eq, stackRelative_eq, add_eq_ofNat, longAdd_eq,
    true_and]

/-- A long pointer with no index is the flat address it gives. -/
theorem longSum_zero (s : State) (a : Addr) : longSum s a 0 = a := by
  have sum : a.toNat / 65536 * 65536 + a.toNat % 65536 = a.toNat := by omega
  have zero : (0 : Word).toNat = 0 := rfl
  rw [longSum, zero, Nat.add_zero, sum, ite_self, BitVec.ofNat_toNat, BitVec.setWidth_eq]

/-- A pointer with no index is the offset it gives. -/
theorem pointerInDB_zero (off : Word) (s : State) : pointerInDB (.pair 0x00 off) 0 s =
    (.pair s.DB (wordIn s 0x00 off), { s with bus := s.bus ++ pairReads s 0x00 off 2 }) := by
  rw [pointerInDB_eq, add_zero]

/-- Settles O30: the pointer reads of the shared operations at the place of each mode. -/
theorem pointerEffectiveAddresses : Obligations.PointerEffectiveAddresses := by
  intro s d
  simp only [effectiveAddress, directPage_eq, directPageIndexed_eq, stackRelative_eq, pointerInDB_zero, longPointer_eq,
    longSum_zero, true_and]
  simp only [pointerInDB_eq, add_eq_ofNat, true_and]

/-- Settles O31: a data read at the effective address, or the immediate. -/
theorem operandIsTheValueAtItsAddress : Obligations.OperandIsTheValueAtItsAddress := fun s w =>
  ⟨fun m => operandRead_mem m w s, fun _ => rfl, fun v => congrArg (·, s) (takeBits_wide v),
    fun src => takeBits_operandRead src w s⟩

/-! ## Branches and jumps -/

theorem exec_brl (l : Word) (s : State) :
    exec (.brl l) s = .next { s with PC := BitVec.ofNat 16 (s.PC.toNat + l.toNat) } := by
  rw [← add_eq_ofNat]
  rfl

/-- A branch, with the target as the statement gives it. -/
theorem branch_eq_branchTarget (cond : Bool) (r : Byte) (s : State) :
    branch cond r s = .next { s with PC := if cond then branchTarget s.PC r else s.PC } := by
  rw [branch_eq, branchTarget, ofInt_toNat_add]
  rfl

/-- Settles O51: each branch is the shared one with its condition. -/
theorem branchesFollowTheirFlag : Obligations.BranchesFollowTheirFlag := fun r l s =>
  ⟨⟨rfl, branch_eq_branchTarget _ r s⟩, ⟨rfl, branch_eq_branchTarget _ r s⟩, ⟨rfl, branch_eq_branchTarget _ r s⟩,
    ⟨rfl, branch_eq_branchTarget _ r s⟩, ⟨rfl, branch_eq_branchTarget _ r s⟩, ⟨rfl, branch_eq_branchTarget _ r s⟩,
    ⟨rfl, branch_eq_branchTarget _ r s⟩, ⟨rfl, branch_eq_branchTarget _ r s⟩, ⟨rfl, branch_eq_branchTarget _ r s⟩,
    rfl, exec_brl l s⟩

/-- Settles O52: the pointer of each jump as the shared reads give it. -/
theorem jumpsLoadTheirTarget : Obligations.JumpsLoadTheirTarget := by
  refine fun a l s => ⟨⟨rfl, rfl⟩, ⟨rfl, ?_⟩, ⟨rfl, ?_⟩, ⟨rfl, rfl⟩, rfl, ?_⟩
  · simp only [exec, execJmpInd, read16_pair]
    rfl
  · simp only [exec, execJmpIndX, programPointer_eq, read16_pair]
    rfl
  · simp only [exec, execJmlLongInd, read24_pair, addrIn, bankOf_joinAddr, offsetOf_joinAddr]
    rfl

end Sys2Proof.Machine

/-! Flags and modes (`spec/44_mode_and_flags.md` R310 to R322). -/

namespace Sys2Proof.Machine

open Sys2Proof.Claims

/-- Settles O59: each is one `putFlag`, whose mask is the statement's. -/
theorem flagInstructionsWriteOneBit : Obligations.FlagInstructionsWriteOneBit := fun _ =>
  ⟨⟨rfl, rfl⟩, ⟨rfl, rfl⟩, ⟨rfl, rfl⟩, ⟨rfl, rfl⟩, ⟨rfl, rfl⟩, ⟨rfl, rfl⟩, ⟨rfl, rfl⟩, rfl, rfl⟩

/-! ## XBA -/

theorem zeroExtend_eq_zero (b : Byte) : zeroExtend b = 0 ↔ b = 0 :=
  ⟨fun h => by rw [← lowByte_zeroExtend b, h]; rfl, fun h => by rw [h]; rfl⟩

theorem signBit_zeroExtend (b : Byte) : signBit .narrow (zeroExtend b) = b.getLsbD 7 := by
  simp [signBit, zeroExtend, widthBits]

theorem exec_xba (s : State) : exec .xba s = .next { s with
    A := joinBytes (lowByte s.A) (highByte s.A), P := flagsNZ .narrow (zeroExtend (highByte s.A)) s.P } := by
  simp only [exec, execXba, State.setNZ_eq, State.setA, lowByte_joinBytes]

/-- Settles O60: the exchange, with the flags of the new low byte. -/
theorem xbaExchangesTheBytesOfA : Obligations.XbaExchangesTheBytesOfA := fun s =>
  ⟨rfl, _, exec_xba s, lowByte_joinBytes _ _, highByte_joinBytes _ _,
    (getFlag_flagsNZ .Z ..).trans (decide_eq_decide.mpr (zeroExtend_eq_zero _)),
    (getFlag_flagsNZ .N ..).trans (signBit_zeroExtend _), onlyFlags_of_flagsNZ rfl, rfl⟩

/-! ## XCE -/

/-- `SetP` in emulation mode writes the two width flags and keeps the rest (`10_state.md` R35). -/
theorem getFlag_forced_true (f : Flag) (p : Byte) :
    getFlag f (forced true p) = (getFlag f p || decide (f = .M ∨ f = .X)) := by
  have bits : getFlag f (forced true p) = (getFlag f p || getFlag f 0x30) := BitVec.getLsbD_or
  rw [bits]
  cases f <;> rfl

theorem putFlag_self {f : Flag} {b : Bool} {p : Byte} (h : getFlag f p = b) : putFlag f b p = p := by
  refine flags_ext fun g => ?_
  rw [getFlag_putFlag]
  split
  next e => rw [e, h]
  next => rfl

theorem putFlag_putFlag (f : Flag) (b c : Bool) (p : Byte) : putFlag f b (putFlag f c p) = putFlag f b p := by
  refine flags_ext fun g => ?_
  rw [getFlag_putFlag, getFlag_putFlag, getFlag_putFlag]
  split <;> rfl

/-- Settles O56: the two directions of XCE. -/
theorem xceExchangesCarryAndMode : Obligations.XceExchangesCarryAndMode := by
  intro s
  cases carry : s.flag .C
  · refine ⟨rfl, _, execXce_native carry, rfl, (getFlag_putFlag ..).trans (if_pos rfl), fun _ =>
      ⟨fun f other => ?_, rfl⟩, nofun⟩
    exact (getFlag_putFlag ..).trans (if_neg (by simpa using other))
  · have flag : ∀ f, getFlag f (forced true (putFlag .C s.E s.P)) =
        ((if f = .C then s.E else s.flag f) || decide (f = .M ∨ f = .X)) := fun f => by
      rw [getFlag_forced_true, getFlag_putFlag]
      rfl
    refine ⟨rfl, _, execXce_emulation carry, rfl, (flag .C).trans (Bool.or_false _), nofun, fun _ => ⟨fun f other => ?_,
      (getFlag_forced _).1, (getFlag_forced _).2, rfl⟩⟩
    obtain ⟨notC, notM, notX⟩ : f ≠ .C ∧ f ≠ .M ∧ f ≠ .X := by simpa using other
    exact (flag f).trans (by simp [notC, notM, notX])

/-- XCE into emulation mode from a state that already has what the mode forces but for C and `E` (R34). -/
theorem execXce_emulation_of_inv {s t : State} (inv : s.Inv) (mode : s.E = true) (carry : t.flag .C = true)
    (P : putFlag .C t.E t.P = s.P) (same : t = { s with P := t.P, E := t.E }) : exec .xce t = .next s := by
  obtain ⟨index, emulation, -, -⟩ := id inv
  obtain ⟨-, narrow, page⟩ := emulation mode
  obtain ⟨highX, highY⟩ := index narrow
  have status : forced true s.P = s.P := mode ▸ forced_eq_self inv
  have stack : 0x0100 ||| (s.S &&& 0x00FF) = s.S := word_ext ((highByte_page _).trans page.symm) (lowByte_page _)
  rw [execXce_emulation carry, P, same, status, and_low_eq_self highX, and_low_eq_self highY, stack, ← mode]

/-- Settles O57: each XCE undoes the exchange; only entering emulation mode from native mode forces anything. -/
theorem xceTwiceRestoresCarryAndMode : Obligations.XceTwiceRestoresCarryAndMode := by
  intro s inv
  cases carry : s.flag .C <;> cases mode : s.E
  · have P : putFlag .C s.E s.P = s.P := putFlag_self (by rw [mode]; exact carry)
    have same : exec .xce s = .next s := by rw [execXce_native carry, P, ← mode]
    exact ⟨s, s, same, same, mode, carry, rfl, fun _ => rfl⟩
  · have P : putFlag .C false (putFlag .C s.E s.P) = s.P := (putFlag_putFlag ..).trans (putFlag_self carry)
    exact ⟨_, s, execXce_native carry, execXce_emulation_of_inv inv mode
      ((getFlag_putFlag ..).trans ((if_pos rfl).trans mode)) P rfl, mode, carry, rfl, fun _ => rfl⟩
  · obtain ⟨-, t, first, tE, tC, -, forcing⟩ := xceExchangesCarryAndMode s
    obtain ⟨-, -, -, st⟩ := forcing carry
    obtain ⟨-, u, second, uE, uC, restoring, -⟩ := xceExchangesCarryAndMode t
    obtain ⟨-, tu⟩ := restoring (tC.trans mode)
    refine ⟨t, u, first, second, uE.trans (tC.trans mode), uC.trans (tE.trans carry), by rw [tu, st], ?_⟩
    rintro (h | h) <;> contradiction
  · have P : putFlag .C s.E s.P = s.P := putFlag_self (by rw [mode]; exact carry)
    have same : exec .xce s = .next s := execXce_emulation_of_inv inv mode carry P rfl
    exact ⟨s, s, same, same, mode, carry, rfl, fun _ => rfl⟩

end Sys2Proof.Machine
